-- ==== Sys2Proof/Word.lean ====
section
/-! DEFINITION. The two bit-vector widths of the machine: the 16-bit word and the 12-bit cell address. -/

namespace Sys2Proof

/-- A word: the 16 bits of a memory cell, of the accumulator, of an instruction and of an item on
either port (00_scope.md R4, R6; 20_memory.md R30). There is no smaller addressable unit. -/
abbrev Word := BitVec 16

/-- A cell address, 0 to 4095: the program counter and the address field of an instruction are this
wide (00_scope.md R4; 10_state.md R13; 30_encoding.md R50). -/
abbrev Addr := BitVec 12

end Sys2Proof
end

