-- ==== Sys2Proof/Config.lean ====
section
/-! DEFINITION. What is fixed for the machine. Nothing here is a free value: this hardware leaves no value
open (93_implementation_defined.md U12; 70_reset_and_hazards.md R152), so no `opaque` constant is needed.
The three optional parameters of 92_eei_decisions.md are hard-wired at their defaults, where the
definitions that use them stand: `ovf_low` in Machine/Flags.lean (log entry 8), `pc_wrap` in
Machine/Ops.lean (log entry 9), `shift_large` in Machine/Alu.lean (log entry 10). -/

namespace Sys2Proof.Config

/-- The number of memory cells, addressed 0 to 4095 (00_scope.md R4; 10_state.md R19). -/
def memorySize : Nat := 4096

/-- The address of the first instruction of every run (70_reset_and_hazards.md R151). -/
def entryPoint : Addr := 0#12

end Sys2Proof.Config
end

