-- ==== Sys2Proof/Syntax.lean ====
section
/-! DEFINITION. The instruction set whole: one constructor for each of the sixteen rows of
spec/opcode_table.json (30_encoding.md R52). Every constructor carries the twelve bits of the `address`
field, those of the six opcodes that ignore it too (R54), so that an instruction holds every bit of its
word and encoding loses none (log entry 13). -/

namespace Sys2Proof

/-- An instruction of the machine. `address` is bits [11:0] of its word (30_encoding.md R50). -/
inductive Instr where
  /-- Opcode 0: stop the machine (44_system_io.md R120). The field is ignored. -/
  | halt (address : Addr)
  /-- Opcode 1: load the accumulator, direct (41_data_movement.md R80). -/
  | load (address : Addr)
  /-- Opcode 2: store the accumulator, direct (41_data_movement.md R81). -/
  | store (address : Addr)
  /-- Opcode 3: add a cell to the accumulator (42_alu.md R101). -/
  | add (address : Addr)
  /-- Opcode 4: subtract a cell from the accumulator (42_alu.md R102). -/
  | sub (address : Addr)
  /-- Opcode 5: load the accumulator from the input port (44_system_io.md R123). The field is ignored. -/
  | input (address : Addr)
  /-- Opcode 6: hand the accumulator to the output port (44_system_io.md R121). The field is ignored. -/
  | output (address : Addr)
  /-- Opcode 7: jump to the address (43_control.md R110). -/
  | jump (address : Addr)
  /-- Opcode 8: skip if the accumulator is zero (43_control.md R111). The field is ignored. -/
  | skipZero (address : Addr)
  /-- Opcode 9: skip if the accumulator is positive (43_control.md R112). The field is ignored. -/
  | skipPos (address : Addr)
  /-- Opcode 10: skip if the overflow flag is set (43_control.md R113). The field is ignored. -/
  | skipErr (address : Addr)
  /-- Opcode 11: load the accumulator through a pointer cell (41_data_movement.md R82). -/
  | loadi (address : Addr)
  /-- Opcode 12: store the accumulator through a pointer cell (41_data_movement.md R83). -/
  | storei (address : Addr)
  /-- Opcode 13: shift the accumulator by the signed count in a cell (42_alu.md R103). -/
  | shift (address : Addr)
  /-- Opcode 14: bitwise AND of a cell into the accumulator (42_alu.md R104). -/
  | and (address : Addr)
  /-- Opcode 15: bitwise exclusive OR of a cell into the accumulator (42_alu.md R105). -/
  | xor (address : Addr)
  deriving DecidableEq, Repr

namespace Instr

/-- The opcode of each instruction: the first column of the table of 30_encoding.md R52. -/
def opcode : Instr → BitVec 4
  | halt _ => 0#4
  | load _ => 1#4
  | store _ => 2#4
  | add _ => 3#4
  | sub _ => 4#4
  | input _ => 5#4
  | output _ => 6#4
  | jump _ => 7#4
  | skipZero _ => 8#4
  | skipPos _ => 9#4
  | skipErr _ => 10#4
  | loadi _ => 11#4
  | storei _ => 12#4
  | shift _ => 13#4
  | and _ => 14#4
  | xor _ => 15#4

/-- The address field of an instruction, used or not (30_encoding.md R50). -/
def address : Instr → Addr
  | halt a => a
  | load a => a
  | store a => a
  | add a => a
  | sub a => a
  | input a => a
  | output a => a
  | jump a => a
  | skipZero a => a
  | skipPos a => a
  | skipErr a => a
  | loadi a => a
  | storei a => a
  | shift a => a
  | and a => a
  | xor a => a

/-- Whether the instruction uses its address field: the fourth column of the table of 30_encoding.md R52,
and `address_used` in spec/opcode_table.json. -/
def usesAddress : Instr → Bool
  | halt _ => false
  | load _ => true
  | store _ => true
  | add _ => true
  | sub _ => true
  | input _ => false
  | output _ => false
  | jump _ => true
  | skipZero _ => false
  | skipPos _ => false
  | skipErr _ => false
  | loadi _ => true
  | storei _ => true
  | shift _ => true
  | and _ => true
  | xor _ => true

end Instr

end Sys2Proof
end

