-- ==== Sys2Proof/WellFormed.lean ====
section
/-! DEFINITION. Which instruction terms are instructions of the machine, and which are written in the
canonical form. The machine has no reserved encoding and no operand restriction (30_encoding.md R55), so
every term is well formed; the one check there is, is the canonical form of R54. -/

namespace Sys2Proof.Instr

/-- Well-formedness. Every opcode is assigned and every 12-bit field is legal, so each of the 65536 words is
a defined instruction (30_encoding.md R55, log entry 15). Written out constructor by constructor, so that a
constructor added later has to answer for itself. -/
def wellFormed : Instr → Bool
  | halt _ => true
  | load _ => true
  | store _ => true
  | add _ => true
  | sub _ => true
  | input _ => true
  | output _ => true
  | jump _ => true
  | skipZero _ => true
  | skipPos _ => true
  | skipErr _ => true
  | loadi _ => true
  | storei _ => true
  | shift _ => true
  | and _ => true
  | xor _ => true

/-- The canonical form of 30_encoding.md R54: an instruction that ignores its address field is written with
address 0. A word that is not canonical is still executed, exactly as its canonical word is. -/
def canonical (i : Instr) : Bool := i.usesAddress || i.address == 0#12

end Sys2Proof.Instr
end

