-- ==== Sys2Proof/Decode.lean ====
section
/-! DEFINITION. Decoding a word, total on all 65536 words, and encoding an instruction
(30_encoding.md R50 to R57). -/

namespace Sys2Proof

/-- Bits [15:12] of a word (30_encoding.md R52: `instruction >> 12`). -/
def opcodeField (w : Word) : BitVec 4 := w.extractLsb' 12 4

/-- Bits [11:0] of a word (30_encoding.md R52: `instruction & 0x0FFF`). -/
def addressField (w : Word) : Addr := w.extractLsb' 0 12

/-- The instruction that an opcode and an address make: the table of 30_encoding.md R52, its "binary" column
read from bit 15 of the word down to bit 12. It has sixteen arms and no seventeenth (R55; the "other" arm of
44_system_io.md R126 is unreachable, log entry 19). -/
def ofFields (opcode : BitVec 4) (address : Addr) : Instr :=
  match opcode.getLsbD 3, opcode.getLsbD 2, opcode.getLsbD 1, opcode.getLsbD 0 with
  | false, false, false, false => .halt address
  | false, false, false, true => .load address
  | false, false, true, false => .store address
  | false, false, true, true => .add address
  | false, true, false, false => .sub address
  | false, true, false, true => .input address
  | false, true, true, false => .output address
  | false, true, true, true => .jump address
  | true, false, false, false => .skipZero address
  | true, false, false, true => .skipPos address
  | true, false, true, false => .skipErr address
  | true, false, true, true => .loadi address
  | true, true, false, false => .storei address
  | true, true, false, true => .shift address
  | true, true, true, false => .and address
  | true, true, true, true => .xor address

/-- Decode of a fetched word (30_encoding.md R52). Total: no word is illegal or reserved (R55). -/
def decode (w : Word) : Instr := ofFields (opcodeField w) (addressField w)

/-- Encode: the 4-bit opcode followed by the 12-bit address (30_encoding.md R52). The opcodes are written
here again from the table's `match` column, not taken from `Instr.opcode`. -/
def encode : Instr → Word
  | .halt a => 0b0000#4 ++ a
  | .load a => 0b0001#4 ++ a
  | .store a => 0b0010#4 ++ a
  | .add a => 0b0011#4 ++ a
  | .sub a => 0b0100#4 ++ a
  | .input a => 0b0101#4 ++ a
  | .output a => 0b0110#4 ++ a
  | .jump a => 0b0111#4 ++ a
  | .skipZero a => 0b1000#4 ++ a
  | .skipPos a => 0b1001#4 ++ a
  | .skipErr a => 0b1010#4 ++ a
  | .loadi a => 0b1011#4 ++ a
  | .storei a => 0b1100#4 ++ a
  | .shift a => 0b1101#4 ++ a
  | .and a => 0b1110#4 ++ a
  | .xor a => 0b1111#4 ++ a

/-- Why a bit string is not one instruction. Words themselves are never rejected (30_encoding.md R55); what
can be wrong is only the length, since an instruction is always exactly one word (R51). -/
inductive DecodeReject where
  /-- The bit string has no bits. -/
  | empty
  /-- The bit string is longer than one word: there are no multi-word instructions (30_encoding.md R51). -/
  | multiWord
  deriving DecidableEq, Repr

/-- The word whose low `nbits` bits are `w`, every bit above them 0. -/
def wordOfBits (nbits w : Nat) : Word := BitVec.ofNat 16 (w % 2 ^ nbits)

/-- Decoding a bit string of a stated length, rejecting by name (log entry 14). -/
def decodeBits (nbits w : Nat) : Except DecodeReject Instr :=
  if nbits = 0 then .error .empty
  else if 16 < nbits then .error .multiWord
  else .ok (decode (wordOfBits nbits w))

/-- The instruction the decoder reads from an instruction whose bits are `w`, numbered as
spec/opcode_table.json numbers them (bit 0 least significant; format W16 is one word, 30_encoding.md R50). -/
def decodeTableWord (nbits w : Nat) : Option Instr :=
  match decodeBits nbits w with
  | .ok i => some i
  | .error _ => none

end Sys2Proof
end

