-- ==== Sys2Proof/Machine/State.lean ====
section
/-! DEFINITION. The state of the machine: the five elements of 10_state.md R10 and the two ports of R23 as
far as the run has got with them (R25). Plain data throughout. -/

namespace Sys2Proof.Machine

/-- Memory: (address, word) pairs, addresses strictly rising, no listed word 0. An unlisted address reads as
`Memory.unlisted` of Machine/Ops.lean, where the canonical form `Memory.wf` is defined too. A cell is 16 bits
because nothing smaller is addressable (20_memory.md R30, R36; 92_eei_decisions.md D20: "A model must not
expose byte-granular memory"; log entry 1). -/
abbrev Memory := List (Nat × Word)

/-- The machine's state. The halted and the running machine are told apart by `run` alone; the machine that
waits for input is the running machine at an INPUT with `input` empty (60_exceptions.md R143). -/
structure State where
  /-- `ACC`, the accumulator, the only general register (10_state.md R11). -/
  acc : Word
  /-- `PC`, the program counter: the address of the next instruction to fetch (10_state.md R13). -/
  pc : Addr
  /-- `OVF`, the sticky overflow flag (10_state.md R15). -/
  ovf : Bool
  /-- `RUN`, the run flag: true running, false halted (10_state.md R17). -/
  run : Bool
  /-- `M[0]` to `M[4095]` (10_state.md R19). -/
  mem : Memory
  /-- The words of the input stream that the environment has supplied and no INPUT has consumed, next first
  (10_state.md R23, R25; 44_system_io.md R124; log entry 4). -/
  input : List Word
  /-- How many input words have been consumed since launch: the input stream's position
  (10_state.md R25; 70_reset_and_hazards.md R162). -/
  consumed : Nat
  /-- The output trace since launch, oldest item first (10_state.md R23, R25; 44_system_io.md R122). -/
  output : List Word
  deriving DecidableEq, Repr

/-- Why a step can stop with a fault: never. No instruction raises an exception and no access faults
(60_exceptions.md R130; 20_memory.md R33), so the type has no constructor (log entry 16). Safe: a claim that
a fault cannot happen is what the manual says. -/
inductive Fault where
  deriving DecidableEq, Repr

/-- Why a step can be refused. -/
inductive Refusal where
  /-- Raised by an arm of `exec` for an instruction that has no meaning yet, under its mnemonic in
  spec/opcode_table.json. Safe: nothing follows of such an instruction. No arm raises it: all sixteen
  instructions have their meaning. -/
  | notModelled (mnemonic : String)
  deriving DecidableEq, Repr

/-- The launch state of 10_state.md R25 with nothing loaded and nothing supplied: `image` and `input` are
parameters of a run, empty here (log entry 7). Every other value is the table's. -/
def State.reset : State where
  acc := 0#16
  pc := Config.entryPoint
  ovf := false
  run := true
  mem := []
  input := []
  consumed := 0
  output := []

end Sys2Proof.Machine
end

