-- ==== Sys2Proof/Machine/Ops.lean ====
section
/-! DEFINITION. The named operations over memory, registers and ports: the pseudocode primitives of
00_scope.md R8, each in one place. There is no operation for taking an exception or returning from one,
because the machine has neither (60_exceptions.md R130, R134, R136, R137). -/

namespace Sys2Proof.Machine

/-- What a step answers. -/
abbrev Result := Host.Outcome State Fault Refusal

/-! ### Readings of a word (00_scope.md R7) -/

/-- `u(w)`: the unsigned reading. -/
abbrev uval (w : Word) : Nat := w.toNat

/-- `s(w)`: the signed, two's-complement reading (92_eei_decisions.md D1, log entry 11). -/
abbrev sval (w : Word) : Int := w.toInt

/-- `trunc16(z)`: the word whose unsigned reading is `z` modulo 65536. -/
abbrev trunc16 (z : Int) : Word := BitVec.ofInt 16 z

/-- `zext_16(a)`: a 12-bit address on the 16-bit address port (10_state.md R22; 30_encoding.md R53). -/
def zext16 (a : Addr) : Word := a.setWidth 16

/-! ### Memory (20_memory.md R30 to R33) -/

/-- What a cell that is not listed holds: 0, since memory is created zero-filled (10_state.md R25). -/
def Memory.unlisted : Word := 0#16

/-- The canonical form from address `lo` up: addresses rising, below the memory size, no unlisted value. -/
def Memory.wfFrom (lo : Nat) : Memory → Bool
  | [] => true
  | (k, v) :: rest =>
    decide (lo ≤ k) && decide (k < Config.memorySize) && v != Memory.unlisted && Memory.wfFrom (k + 1) rest

/-- The canonical form of memory: equal memories are equal lists. -/
def Memory.wf (m : Memory) : Bool := Memory.wfFrom 0 m

/-- `M[i]`: the content of cell `i` (00_scope.md R8). -/
def Memory.cell : Memory → Nat → Word
  | [], _ => Memory.unlisted
  | (k, v) :: rest, i => if i < k then Memory.unlisted else if i = k then v else Memory.cell rest i

/-- `M[i] <- v`, keeping the canonical form: an entry equal to the unlisted value is not kept. -/
def Memory.setCell : Memory → Nat → Word → Memory
  | [], i, v => if v = Memory.unlisted then [] else [(i, v)]
  | (k, x) :: rest, i, v =>
    if i < k then (if v = Memory.unlisted then (k, x) :: rest else (i, v) :: (k, x) :: rest)
    else if i = k then (if v = Memory.unlisted then rest else (i, v) :: rest)
    else (k, x) :: Memory.setCell rest i v

/-- The bounds check of the 16-bit unsigned address port (20_memory.md R31, R32; log entry 12). -/
def inRange (a : Word) : Bool := decide (uval a < Config.memorySize)

/-- `MemRead(a, 1)` (20_memory.md R31): the cell, or 0 out of range. It never faults (R33). -/
def memRead (m : Memory) (a : Word) : Word :=
  if inRange a then Memory.cell m (uval a) else 0#16

/-- `MemWrite(a, 1, v)` (20_memory.md R32): the cell is set; out of range nothing happens at all. -/
def memWrite (m : Memory) (a v : Word) : Memory :=
  if inRange a then Memory.setCell m (uval a) v else m

/-! ### Registers -/

/-- `ACC <- v`. -/
def State.setAcc (s : State) (v : Word) : State := { s with acc := v }

/-- `PC <- t`. -/
def State.setPc (s : State) (t : Addr) : State := { s with pc := t }

/-- `PC <- (PC + k) mod 4096` (10_state.md R14: a 12-bit register wraps; log entry 9). -/
def State.advance (s : State) (k : Nat) : State := { s with pc := s.pc + BitVec.ofNat 12 k }

/-- `OVF <- OVF or v` (10_state.md R15: written toward 1 only). -/
def State.orOvf (s : State) (v : Bool) : State := { s with ovf := s.ovf || v }

/-- `RUN <- 0` (10_state.md R17: no instruction writes 1). -/
def State.clearRun (s : State) : State := { s with run := false }

/-- A write on the memory interface. -/
def State.write (s : State) (a v : Word) : State := { s with mem := memWrite s.mem a v }

/-! ### Ports (10_state.md R23) -/

/-- `In()` (44_system_io.md R124): the first word not yet consumed, and the state in which it is consumed;
`none` when the environment has supplied no further word. -/
def takeInput (s : State) : Option (Word × State) :=
  match s.input with
  | [] => none
  | w :: rest => some (w, { s with input := rest, consumed := s.consumed + 1 })

/-- `Out(v)` (44_system_io.md R122): exactly one item, appended to the trace. It always succeeds
(92_eei_decisions.md D13, log entry 5). -/
def State.emit (s : State) (v : Word) : State := { s with output := s.output ++ [v] }

/-! ### The step's own operations -/

/-- The fetch: an ordinary read at `PC` (40_step_cycle.md R71; 20_memory.md R43). -/
def fetch (s : State) : Word := memRead s.mem (zext16 s.pc)

/-- The answer where no step is enabled: the state unchanged. It stands for the halted machine
(40_step_cycle.md R70) and for INPUT with nothing to read (44_system_io.md R124). That the absence of a step
is an answer `next` with the same state is the model's (DESIGN CHOICE, log entries 2 and 3). -/
def idle (s : State) : Result := .next s

end Sys2Proof.Machine
end

