-- ==== Sys2Proof/Machine/Flags.lean ====
section
/-! DEFINITION. The overflow output of the ALU and the three conditions a skip tests. There are no other
condition codes (10_state.md R16). -/

namespace Sys2Proof.Machine

/-- The low bound of the interval that is no overflow: -32767, not -32768 (42_alu.md R92;
90_conflicts.md C1; 92_eei_decisions.md D3, log entry 8). -/
def ovfLow : Int := -32767

/-- The high bound of the interval that is no overflow (42_alu.md R92). -/
def ovfHigh : Int := 32767

/-- The overflow output for a true ADD or SUB result `t` (42_alu.md R92). -/
def overflowed (t : Int) : Bool := decide (t < ovfLow) || decide (ovfHigh < t)

/-- SKIPZERO's condition: all sixteen bits are 0 (43_control.md R111). -/
def accIsZero (acc : Word) : Bool := acc == 0#16

/-- SKIPPOS's condition: strictly positive, read signed (43_control.md R112). -/
def accIsPositive (acc : Word) : Bool := decide (0 < sval acc)

end Sys2Proof.Machine
end

