-- ==== Sys2Proof/Machine/Operands.lean ====
section
/-! DEFINITION. The three operand forms of 30_encoding.md R53, and the cell an instruction stores to. -/

namespace Sys2Proof.Machine

/-- Direct form: the cell `M[address]` (30_encoding.md R53). Always in range (20_memory.md R34). -/
def directOperand (address : Addr) (s : State) : Word := memRead s.mem (zext16 address)

/-- The pointer of the indirect form: the 16 bits of `M[address]`, used in full as an unsigned address
(41_data_movement.md R82, R83; log entry 12). -/
def pointer (address : Addr) (s : State) : Word := memRead s.mem (zext16 address)

/-- Indirect form: the cell the pointer names, 0 when it is out of range (30_encoding.md R53). -/
def indirectOperand (address : Addr) (s : State) : Word := memRead s.mem (pointer address s)

/-- Target form: the field itself, as the new `PC` (30_encoding.md R53; 43_control.md R110). -/
def jumpTarget (address : Addr) : Addr := address

/-- The address an instruction presents for its write, if it makes one (20_memory.md R39). The write of
STOREI may be out of range, and then changes nothing. -/
def storeAddress (i : Instr) (s : State) : Option Word :=
  match i with
  | .store a => some (zext16 a)
  | .storei a => some (pointer a s)
  | .halt _ => none
  | .load _ => none
  | .add _ => none
  | .sub _ => none
  | .input _ => none
  | .output _ => none
  | .jump _ => none
  | .skipZero _ => none
  | .skipPos _ => none
  | .skipErr _ => none
  | .loadi _ => none
  | .shift _ => none
  | .and _ => none
  | .xor _ => none

end Sys2Proof.Machine
end

