-- ==== Sys2Proof/Machine/Alu.lean ====
section
/-! DEFINITION. The ALU function (42_alu.md R90 to R100) and the five instructions that use it (R101 to R105). -/

namespace Sys2Proof.Machine

/-- The five operations the ALU is defined on (42_alu.md R90, R100). -/
inductive AluOp where
  | add | sub | shift | and | xor
  deriving DecidableEq, Repr

/-- A left shift by `n` places (42_alu.md R97): bits move up, zeros fill the low end, and from 16 places on
nothing is left (92_eei_decisions.md D5, log entry 10). -/
def shiftLeftBy (a : Word) (n : Nat) : Word := if n < 16 then a <<< n else 0#16

/-- A right shift by `m` places (42_alu.md R98): arithmetic, copies of the sign bit fill the high end
(92_eei_decisions.md D4), and from 16 places on only the sign is left, 0 or -1 (D5, log entry 10). -/
def shiftRightBy (a : Word) (m : Nat) : Word :=
  if m < 16 then a.sshiftRight m else if sval a < 0 then 0xFFFF#16 else 0#16

/-- SHIFT's result for the accumulator `a` and the signed count (42_alu.md R96): left by the count, or right by
its absolute value, which is taken as a mathematical integer (92_eei_decisions.md D6). -/
def shiftResult (a : Word) (count : Int) : Word :=
  if 0 ≤ count then shiftLeftBy a count.toNat else shiftRightBy a (-count).toNat

/-- `ALU(op, a, b) = (r, v)` (42_alu.md R90): `a` is the accumulator, `b` the memory operand, both read as
signed (92_eei_decisions.md D2, log entry 10). ADD: R91, R92. SUB: R93, R92. SHIFT: R96 to R99. AND, XOR: R94,
R95, R99. -/
def alu (op : AluOp) (a b : Word) : Word × Bool :=
  match op with
  | .add => (trunc16 (sval a + sval b), overflowed (sval a + sval b))
  | .sub => (trunc16 (sval a - sval b), overflowed (sval a - sval b))
  | .shift => (shiftResult a (sval b), false)
  | .and => (a &&& b, false)
  | .xor => (a ^^^ b, false)

/-- What ADD and SUB do: the result to `ACC`, the overflow output into the sticky `OVF` (42_alu.md R101,
R102). -/
def aluWithFlag (op : AluOp) (address : Addr) (s : State) : Result :=
  let rv := alu op s.acc (directOperand address s)
  .next (((s.setAcc rv.1).orOvf rv.2).advance 1)

/-- What SHIFT, AND and XOR do: the result to `ACC`, `OVF` unchanged (42_alu.md R103 to R105). -/
def aluWithoutFlag (op : AluOp) (address : Addr) (s : State) : Result :=
  .next ((s.setAcc (alu op s.acc (directOperand address s)).1).advance 1)

/-- ADD (42_alu.md R101). -/
def execAdd (address : Addr) (s : State) : Result := aluWithFlag .add address s

/-- SUB (42_alu.md R102): the accumulator is the minuend. -/
def execSub (address : Addr) (s : State) : Result := aluWithFlag .sub address s

/-- SHIFT (42_alu.md R103): the count is the content of the cell, not the address field. -/
def execShift (address : Addr) (s : State) : Result := aluWithoutFlag .shift address s

/-- AND (42_alu.md R104). -/
def execAnd (address : Addr) (s : State) : Result := aluWithoutFlag .and address s

/-- XOR (42_alu.md R105). -/
def execXor (address : Addr) (s : State) : Result := aluWithoutFlag .xor address s

end Sys2Proof.Machine
end

