-- ==== Sys2Proof/Machine/Control.lean ====
section
/-! DEFINITION. JUMP, SKIPZERO, SKIPPOS, SKIPERR (43_control.md R110 to R113). -/

namespace Sys2Proof.Machine

/-- A skip: two cells on if the condition holds, else one (10_state.md R13). -/
def skipIf (condition : Bool) (s : State) : Result :=
  .next (s.advance (if condition then 2 else 1))

/-- JUMP (43_control.md R110). -/
def execJump (address : Addr) (s : State) : Result := .next (s.setPc (jumpTarget address))

/-- SKIPZERO (43_control.md R111). The address field is ignored (30_encoding.md R54). -/
def execSkipZero (_address : Addr) (s : State) : Result := skipIf (accIsZero s.acc) s

/-- SKIPPOS (43_control.md R112). The address field is ignored. -/
def execSkipPos (_address : Addr) (s : State) : Result := skipIf (accIsPositive s.acc) s

/-- SKIPERR (43_control.md R113). `OVF` is read and not cleared. The address field is ignored. -/
def execSkipErr (_address : Addr) (s : State) : Result := skipIf s.ovf s

end Sys2Proof.Machine
end

