-- ==== Sys2Proof/Machine/DataMovement.lean ====
section
/-! DEFINITION. LOAD, STORE, LOADI, STOREI (41_data_movement.md R80 to R83). -/

namespace Sys2Proof.Machine

/-- LOAD (41_data_movement.md R80). -/
def execLoad (address : Addr) (s : State) : Result :=
  .next ((s.setAcc (directOperand address s)).advance 1)

/-- STORE (41_data_movement.md R81). -/
def execStore (address : Addr) (s : State) : Result :=
  .next ((s.write (zext16 address) s.acc).advance 1)

/-- LOADI (41_data_movement.md R82): one dereference; an out-of-range pointer loads 0. -/
def execLoadi (address : Addr) (s : State) : Result :=
  .next ((s.setAcc (indirectOperand address s)).advance 1)

/-- STOREI (41_data_movement.md R83): the pointer is read before the write; an out-of-range pointer discards
the write and the step still completes. -/
def execStorei (address : Addr) (s : State) : Result :=
  .next ((s.write (pointer address s) s.acc).advance 1)

end Sys2Proof.Machine
end

