-- ==== Sys2Proof/Machine/SystemIO.lean ====
section
/-! DEFINITION. HALT, OUTPUT, INPUT (44_system_io.md R120 to R124). -/

namespace Sys2Proof.Machine

/-- HALT (44_system_io.md R120): `PC` stays at the HALT. The address field is ignored (30_encoding.md R54). -/
def execHalt (_address : Addr) (s : State) : Result := .next s.clearRun

/-- OUTPUT (44_system_io.md R121). The address field is ignored. -/
def execOutput (_address : Addr) (s : State) : Result := .next ((s.emit s.acc).advance 1)

/-- INPUT (44_system_io.md R123): the next input word to `ACC`. With no word available the step does not
happen and the machine waits with all state unchanged (R124; DESIGN CHOICE on how that is answered, log
entry 3). The address field is ignored. -/
def execInput (_address : Addr) (s : State) : Result :=
  match takeInput s with
  | none => idle s
  | some (w, t) => .next ((t.setAcc w).advance 1)

end Sys2Proof.Machine
end

