-- ==== Sys2Proof/Machine/Dispatch.lean ====
section
/-! DEFINITION. The dispatch of 40_step_cycle.md R71: one arm per instruction. -/

namespace Sys2Proof.Machine

def exec (i : Instr) (s : State) : Host.Outcome State Fault Refusal :=
  match i with
  | .halt a => Sys2Proof.Machine.execHalt a s
  | .load a => Sys2Proof.Machine.execLoad a s
  | .store a => Sys2Proof.Machine.execStore a s
  | .add a => Sys2Proof.Machine.execAdd a s
  | .sub a => Sys2Proof.Machine.execSub a s
  | .input a => Sys2Proof.Machine.execInput a s
  | .output a => Sys2Proof.Machine.execOutput a s
  | .jump a => Sys2Proof.Machine.execJump a s
  | .skipZero a => Sys2Proof.Machine.execSkipZero a s
  | .skipPos a => Sys2Proof.Machine.execSkipPos a s
  | .skipErr a => Sys2Proof.Machine.execSkipErr a s
  | .loadi a => Sys2Proof.Machine.execLoadi a s
  | .storei a => Sys2Proof.Machine.execStorei a s
  | .shift a => Sys2Proof.Machine.execShift a s
  | .and a => Sys2Proof.Machine.execAnd a s
  | .xor a => Sys2Proof.Machine.execXor a s

end Sys2Proof.Machine
end

