-- ==== Sys2Proof/Machine/HostPort.lean ====
section
/-! DEFINITION. The host's side of the block boundary (10_state.md R23): the launch with its program load, the
arrival of input words during a run, the `halted` status and the read-back after a halt. The host has no other
move (70_reset_and_hazards.md R161). -/

namespace Sys2Proof.Machine

/-- The host load from address `i` up: each word through the memory's own write (70_reset_and_hazards.md
R153). Words beyond address 4095 are dropped, as the write's bounds check drops them (R154); the loader stops
asking there, because the 16-bit address port could not name the later addresses (log entry 6). -/
def loadFrom (m : Memory) (i : Nat) : List Word → Memory
  | [] => m
  | w :: rest => loadFrom (if i < Config.memorySize then memWrite m (BitVec.ofNat 16 i) w else m) (i + 1) rest

/-- `launch(image)` (70_reset_and_hazards.md R150): memory zero-filled, the image from address 0 up, the
registers at their initial values, the input stream at its first word, the trace empty (10_state.md R25). -/
def launch (image input : List Word) : State :=
  { State.reset with mem := loadFrom [] 0 image, input := input }

/-- The environment makes further input words available (44_system_io.md R124): the only thing the host does
to the block during a run besides accepting output (70_reset_and_hazards.md R161). -/
def supplyInput (words : List Word) (s : State) : State := { s with input := s.input ++ words }

/-- The `halted` status: the inverse of `RUN` (10_state.md R23). -/
def haltedStatus (s : State) : Bool := !s.run

/-- What the host reads back from a finished run (70_reset_and_hazards.md R162). -/
structure ReadBack where
  /-- The output trace since launch. -/
  output : List Word
  /-- The final accumulator. -/
  acc : Word
  /-- The final program counter: the address of the HALT that stopped the machine. -/
  pc : Addr
  /-- The final overflow flag. -/
  ovf : Bool
  /-- The final memory. -/
  mem : Memory
  /-- How many input words were consumed. -/
  consumed : Nat
  deriving DecidableEq, Repr

/-- Read-back, after halt only (10_state.md R23). -/
def readBack (s : State) : Option ReadBack :=
  if haltedStatus s then
    some { output := s.output, acc := s.acc, pc := s.pc, ovf := s.ovf, mem := s.mem, consumed := s.consumed }
  else none

/-- Placing a word where the machine fetches next and making sure it is running: the host load of one word
(70_reset_and_hazards.md R153), for `withFetchWord` of Machine/Step.lean (log entry 6). -/
def placeAtFetch (s : State) (w : Word) : State :=
  { s with mem := memWrite s.mem (zext16 s.pc) w, run := true }

end Sys2Proof.Machine
end

