-- ==== Sys2Proof/Machine/Step.lean ====
section
/-! DEFINITION. The step (40_step_cycle.md R70, R71): the gate, then fetch, decode, dispatch. -/

namespace Sys2Proof.Machine

/-- One step. Running: fetch at `PC`, decode, dispatch (40_step_cycle.md R71). Halted: there is no step and
nothing changes (R70), answered as `idle` (log entry 2). -/
def step (s : State) : Host.Outcome State Fault Refusal :=
  if s.run then exec (decode (fetch s)) s else idle s

/-- `s` with the instruction of bits `w` placed where `step` fetches next, and the run flag set, which the
fetch needs (40_step_cycle.md R70). Nothing else changes (log entry 6). -/
def State.withFetchWord (s : State) (nbits w : Nat) : State := placeAtFetch s (wordOfBits nbits w)

end Sys2Proof.Machine
end

