-- ==== Sys2Proof/Safety.lean ====
section
/-! DEFINITION. The conditions a machine can be in (60_exceptions.md R143), and what holds of every state of a
run. The words the statements use. -/

namespace Sys2Proof.Machine

/-- Halted: `RUN = 0` (40_step_cycle.md R70). -/
abbrev Halted (s : State) : Prop := s.run = false

/-- Waiting for input: running, the instruction at `PC` is an INPUT, and no word is available
(60_exceptions.md R143; 44_system_io.md R124). -/
def Waiting (s : State) : Prop :=
  s.run = true ∧ (∃ a, decode (fetch s) = .input a) ∧ s.input = []

/-- A step is enabled: the machine is neither halted nor waiting (40_step_cycle.md R73). -/
def Enabled (s : State) : Prop := s.run = true ∧ ¬ Waiting s

/-- The invariant of the representation: memory is in its canonical form. It holds after every launch and
every step keeps it. -/
abbrev MemoryCanonical (s : State) : Prop := Memory.wf s.mem = true

/-- The state after `k` steps, if the machine gets there. -/
def RunsTo (k : Nat) (s t : State) : Prop := Host.Core.run Sys2Proof.core k s = .next t

end Sys2Proof.Machine
end

