-- ==== Sys2Proof/Certificates/Slice0/Obligations.lean ====
section
/-! DEFINITION. The statements about the model. Words used in them: `memRead m (zext16 a)` is the cell a direct
address names, `s.pc` read with `toNat` is the number 0 to 4095, and `t` is the state after. Wherever `PC` moves
on, it does so modulo 4096: that is 10_state.md R14, which the spec marks as its own decision D7 (log entry 9).
Wherever a word is read as signed, that is two's complement, decision D1 (log entry 11). -/

open Sys2Proof Sys2Proof.Machine

/-! ### Encoding -/

/-- One word of each of the sixteen opcodes, written out bit by bit from the table of 30_encoding.md R52, decodes
to the instruction it stands for. The LOAD 5 word is R57's own example. -/
def Obligations.WordsWrittenOutDecodeByTheTable : Prop :=
  decode 0b0000000000000000#16 = .halt 0#12 ∧
  decode 0b0001000000000101#16 = .load 5#12 ∧
  decode 0b0010000000001010#16 = .store 10#12 ∧
  decode 0b0011000000001000#16 = .add 8#12 ∧
  decode 0b0100000000001001#16 = .sub 9#12 ∧
  decode 0b0101000000000000#16 = .input 0#12 ∧
  decode 0b0110000000000000#16 = .output 0#12 ∧
  decode 0b0111000000000010#16 = .jump 2#12 ∧
  decode 0b1000000000000000#16 = .skipZero 0#12 ∧
  decode 0b1001000000000000#16 = .skipPos 0#12 ∧
  decode 0b1010000000000000#16 = .skipErr 0#12 ∧
  decode 0b1011000000010100#16 = .loadi 20#12 ∧
  decode 0b1100000000010100#16 = .storei 20#12 ∧
  decode 0b1101000000011110#16 = .shift 30#12 ∧
  decode 0b1110000000101000#16 = .and 40#12 ∧
  decode 0b1111000000101000#16 = .xor 40#12

/-- 30_encoding.md R52: decode takes `w[15:12]` and `w[11:0]`, encode is `opcode * 4096 + address`, the two are
inverse to each other on all 65536 words, and the opcode selects the instruction by the table, whose column
"uses address" is `usesAddress`. -/
def Obligations.DecodeAndEncodeAreInverse : Prop :=
  (∀ w : Word, (decode w).opcode.toNat = w.toNat / 4096 ∧ (decode w).address.toNat = w.toNat % 4096) ∧
  (∀ i : Instr, (encode i).toNat = i.opcode.toNat * 4096 + i.address.toNat) ∧
  (∀ i : Instr, decode (encode i) = i) ∧
  (∀ w : Word, encode (decode w) = w) ∧
  (∀ a : Addr,
    decode (0#4 ++ a) = .halt a ∧ (Instr.halt a).usesAddress = false ∧
    decode (1#4 ++ a) = .load a ∧ (Instr.load a).usesAddress = true ∧
    decode (2#4 ++ a) = .store a ∧ (Instr.store a).usesAddress = true ∧
    decode (3#4 ++ a) = .add a ∧ (Instr.add a).usesAddress = true ∧
    decode (4#4 ++ a) = .sub a ∧ (Instr.sub a).usesAddress = true ∧
    decode (5#4 ++ a) = .input a ∧ (Instr.input a).usesAddress = false ∧
    decode (6#4 ++ a) = .output a ∧ (Instr.output a).usesAddress = false ∧
    decode (7#4 ++ a) = .jump a ∧ (Instr.jump a).usesAddress = true ∧
    decode (8#4 ++ a) = .skipZero a ∧ (Instr.skipZero a).usesAddress = false ∧
    decode (9#4 ++ a) = .skipPos a ∧ (Instr.skipPos a).usesAddress = false ∧
    decode (10#4 ++ a) = .skipErr a ∧ (Instr.skipErr a).usesAddress = false ∧
    decode (11#4 ++ a) = .loadi a ∧ (Instr.loadi a).usesAddress = true ∧
    decode (12#4 ++ a) = .storei a ∧ (Instr.storei a).usesAddress = true ∧
    decode (13#4 ++ a) = .shift a ∧ (Instr.shift a).usesAddress = true ∧
    decode (14#4 ++ a) = .and a ∧ (Instr.and a).usesAddress = true ∧
    decode (15#4 ++ a) = .xor a ∧ (Instr.xor a).usesAddress = true)

/-- 30_encoding.md R51, R55 (the spec marks R55 as derived): every bit string of at most one word is a
well-formed instruction, and a longer one is rejected by name. The treatment of lengths other than 16 is the
model's (log entry 14). -/
def Obligations.OnlyLengthIsEverRejected : Prop :=
  ∀ nbits w : Nat,
    (1 ≤ nbits → nbits ≤ 16 → ∃ i, decodeBits nbits w = .ok i ∧ i.wellFormed = true ∧
      (encode i).toNat = w % 2 ^ nbits) ∧
    (16 < nbits → decodeBits nbits w = .error .multiWord) ∧
    (nbits = 0 → decodeBits nbits w = .error .empty)

/-- 30_encoding.md R54 (decision D9): for the six opcodes that ignore the address field, two words of the same
opcode are the same instruction: they do the same in every state. -/
def Obligations.IgnoredAddressFieldHasNoEffect : Prop :=
  ∀ (w w' : Word) (s : State), w.toNat / 4096 = w'.toNat / 4096 →
    (decode w).usesAddress = false → exec (decode w) s = exec (decode w') s

/-- 30_encoding.md R56 (derived): any word 0 to 4095, unloaded memory among them, is a HALT when executed. -/
def Obligations.SmallWordsHaltWhenExecuted : Prop :=
  ∀ (s : State), s.run = true → (memRead s.mem (zext16 s.pc)).toNat < 4096 →
    step s = .next { s with run := false }

/-! ### The step -/

/-- 40_step_cycle.md R71: a running machine fetches the cell at `PC`, decodes it and runs that instruction, with
nothing added around it: the instruction's rule gives the new `PC` too. -/
def Obligations.StepRunsTheFetchedInstruction : Prop :=
  ∀ (s : State) (i : Instr), s.run = true → i.wellFormed = true →
    decode (memRead s.mem (zext16 s.pc)) = i → step s = exec i s

/-- A word placed where the machine fetches is the instruction the very next step runs; placing it changes that
one cell and sets `RUN` (log entry 6). -/
def Obligations.PlacedWordIsRunNext : Prop :=
  ∀ (s : State) (i : Instr), MemoryCanonical s →
    (let p := s.withFetchWord 16 (encode i).toNat
     step p = exec i p ∧ p.acc = s.acc ∧ p.pc = s.pc ∧ p.ovf = s.ovf ∧ p.run = true ∧ p.input = s.input ∧
     p.consumed = s.consumed ∧ p.output = s.output ∧
     ∀ x : Word, memRead p.mem x = if x = zext16 s.pc then encode i else memRead s.mem x)

/-- 40_step_cycle.md R73, 60_exceptions.md R130: no step faults and none is refused. That the machine with no
enabled step answers `next` too is the model's choice (log entries 2 and 3). -/
def Obligations.EveryStepAnswersANextState : Prop :=
  ∀ s : State, ∃ t, step s = .next t

/-- 40_step_cycle.md R70: once halted, nothing changes ever again, whatever the number of steps. That the absence
of a step is written as a step to the same state is the model's choice (log entry 2). -/
def Obligations.HaltedStateIsFinal : Prop :=
  ∀ (k : Nat) (s : State), Halted s → RunsTo k s s

/-- 44_system_io.md R124 (decision D11): the machine that waits for input does not change, and when a word arrives
it executes its INPUT with that word. That waiting is written as a step to the same state is the model's choice
(log entry 3).
`PC` is modulo 4096: R14, decision D7, log entry 9. -/
def Obligations.WaitingEndsWhenAWordArrives : Prop :=
  ∀ s : State, Waiting s →
    step s = .next s ∧
    ∀ (w : Word) (later : List Word), ∃ t, step (supplyInput (w :: later) s) = .next t ∧
      t.acc = w ∧ t.pc.toNat = (s.pc.toNat + 1) % 4096 ∧ t.input = later ∧ t.consumed = s.consumed + 1 ∧
      t.ovf = s.ovf ∧ t.run = true ∧ t.mem = s.mem ∧ t.output = s.output

/-- 60_exceptions.md R134, 70_reset_and_hazards.md R161: a word waiting on the input port does not disturb a
machine that is not waiting for one: the step with further words supplied is the step without them. -/
def Obligations.ArrivingInputDisturbsNothing : Prop :=
  ∀ (s t : State) (words : List Word), ¬ Waiting s → step s = .next t →
    step (supplyInput words s) = .next (supplyInput words t)

/-- 40_step_cycle.md R73, 60_exceptions.md R143: a machine with no enabled step is halted or waiting, and it keeps
its state (written as a step to the same state: the model's choice, log entries 2 and 3); an enabled step changes
the state, but for the JUMP to its own address (43_control.md R110). -/
def Obligations.OnlyIdlingAndSelfJumpsRepeatTheState : Prop :=
  ∀ s : State, (¬ Enabled s ↔ Halted s ∨ Waiting s) ∧
    (step s = .next s ↔ ¬ Enabled s ∨ decode (fetch s) = .jump s.pc)

/-! ### Data movement -/

/-- LOAD, 41_data_movement.md R80: the whole cell to `ACC`; nothing else but `PC`.
`PC` is modulo 4096: R14, decision D7, log entry 9. -/
def Obligations.LoadCopiesTheCell : Prop :=
  ∀ (a : Addr) (s : State), ∃ t, exec (.load a) s = .next t ∧
    t.acc = memRead s.mem (zext16 a) ∧ t.pc.toNat = (s.pc.toNat + 1) % 4096 ∧
    t.ovf = s.ovf ∧ t.run = s.run ∧ t.mem = s.mem ∧
    t.input = s.input ∧ t.consumed = s.consumed ∧ t.output = s.output

/-- STORE, 41_data_movement.md R81: the cell the field names takes all of `ACC`, every other address reads as
before, and nothing else changes but `PC`.
`PC` is modulo 4096: R14, decision D7, log entry 9. -/
def Obligations.StoreWritesTheNamedCellOnly : Prop :=
  ∀ (a : Addr) (s : State), MemoryCanonical s → ∃ t, exec (.store a) s = .next t ∧
    (∀ x : Word, memRead t.mem x = if x = zext16 a then s.acc else memRead s.mem x) ∧
    t.acc = s.acc ∧ t.pc.toNat = (s.pc.toNat + 1) % 4096 ∧ t.ovf = s.ovf ∧ t.run = s.run ∧
    t.input = s.input ∧ t.consumed = s.consumed ∧ t.output = s.output

/-- LOADI, 41_data_movement.md R82: the pointer is used in full as an unsigned address (decision D8, log entry
12); a pointer of 4096 or more loads 0.
`PC` is modulo 4096: R14, decision D7, log entry 9. -/
def Obligations.LoadiDereferencesThePointerOnce : Prop :=
  ∀ (a : Addr) (s : State), ∃ t, exec (.loadi a) s = .next t ∧
    (let p := memRead s.mem (zext16 a)
     (p.toNat < 4096 → t.acc = Memory.cell s.mem p.toNat) ∧ (4096 ≤ p.toNat → t.acc = 0#16)) ∧
    t.pc.toNat = (s.pc.toNat + 1) % 4096 ∧
    t.ovf = s.ovf ∧ t.run = s.run ∧ t.mem = s.mem ∧
    t.input = s.input ∧ t.consumed = s.consumed ∧ t.output = s.output

/-- STOREI, 41_data_movement.md R83: the cell the pointer names takes `ACC`; a pointer of 4096 or more (decision
D8, log entry 12) changes no cell and the step still completes.
`PC` is modulo 4096: R14, decision D7, log entry 9. -/
def Obligations.StoreiWritesThroughThePointer : Prop :=
  ∀ (a : Addr) (s : State), MemoryCanonical s → ∃ t, exec (.storei a) s = .next t ∧
    (let p := memRead s.mem (zext16 a)
     (∀ x : Word, memRead t.mem x = if x = p ∧ p.toNat < 4096 then s.acc else memRead s.mem x) ∧
     (4096 ≤ p.toNat → t.mem = s.mem)) ∧
    t.acc = s.acc ∧ t.pc.toNat = (s.pc.toNat + 1) % 4096 ∧ t.ovf = s.ovf ∧ t.run = s.run ∧
    t.input = s.input ∧ t.consumed = s.consumed ∧ t.output = s.output

/-! ### The ALU function -/

/-- ADD's result, 42_alu.md R91: the true sum truncated to 16 bits, which is the low half of the unsigned sum, and
its signed value in each of the three ranges of the true sum. -/
def Obligations.AluSumWrapsModulo65536 : Prop :=
  ∀ a b : Word,
    (let total := a.toInt + b.toInt
     let r := (alu .add a b).1
     (r.toNat : Int) = total % 65536 ∧ -65536 ≤ total ∧ total ≤ 65534 ∧ r.toNat = (a.toNat + b.toNat) % 65536 ∧
     (-32768 ≤ total → total ≤ 32767 → r.toInt = total) ∧
     (32767 < total → r.toInt = total - 65536) ∧
     (total < -32768 → r.toInt = total + 65536))

/-- SUB's result, 42_alu.md R93: the accumulator is the minuend, and the true difference is truncated as ADD's sum
is. -/
def Obligations.AluDifferenceWrapsModulo65536 : Prop :=
  ∀ a b : Word,
    (let total := a.toInt - b.toInt
     let r := (alu .sub a b).1
     (r.toNat : Int) = total % 65536 ∧ -65535 ≤ total ∧ total ≤ 65535 ∧
     (-32768 ≤ total → total ≤ 32767 → r.toInt = total) ∧
     (32767 < total → r.toInt = total - 65536) ∧
     (total < -32768 → r.toInt = total + 65536))

/-- The overflow output, 42_alu.md R92 (decision D3, conflict C1, log entry 8): set exactly when the true result
lies outside -32767 to 32767; for every true result but -32768 that is exactly when the signed result differs
from it, and at -32768 it is set although nothing is lost. -/
def Obligations.OverflowIsTheSymmetricInterval : Prop :=
  ∀ (op : AluOp) (a b : Word) (total : Int),
    ((op = .add ∧ total = a.toInt + b.toInt) ∨ (op = .sub ∧ total = a.toInt - b.toInt)) →
    ((alu op a b).2 = true ↔ total < -32767 ∨ 32767 < total) ∧
    (total ≠ -32768 → ((alu op a b).2 = true ↔ (alu op a b).1.toInt ≠ total)) ∧
    (total = -32768 → (alu op a b).2 = true ∧ (alu op a b).1.toInt = total)

/-- 42_alu.md R94, R95, R99: AND and XOR bit by bit, XOR with all ones is NOT, and AND, XOR and SHIFT never report
overflow. That the five operations are all there are is R90 and R100 (decision D21, log entry 19). -/
def Obligations.AndXorAreBitwiseAndSetNoOverflow : Prop :=
  ∀ a b : Word,
    (∀ i : Nat, i < 16 → (alu .and a b).1.getLsbD i = (a.getLsbD i && b.getLsbD i)) ∧
    (∀ i : Nat, i < 16 → (alu .xor a b).1.getLsbD i = (a.getLsbD i ^^ b.getLsbD i)) ∧
    (∀ i : Nat, i < 16 → (alu .xor a 0xFFFF#16).1.getLsbD i = !a.getLsbD i) ∧
    (∀ op : AluOp, op = .add ∨ op = .sub ∨ op = .shift ∨ op = .and ∨ op = .xor) ∧
    (alu .and a b).2 = false ∧ (alu .xor a b).2 = false ∧ (alu .shift a b).2 = false

/-- SHIFT by a count that is not negative, 42_alu.md R96, R97 (decision D5, log entry 10): the product with the
power of two modulo 65536, bits moved up with zeros below for counts up to 15, and 0 from 16 on. -/
def Obligations.ShiftLeftMultipliesByAPowerOfTwo : Prop :=
  ∀ a b : Word, 0 ≤ b.toInt →
    (let n := b.toInt.toNat
     let r := (alu .shift a b).1
     (r.toNat : Int) = (a.toInt * 2 ^ n) % 65536 ∧
     (n ≤ 15 → ∀ i : Nat, i < 16 → r.getLsbD i = (decide (n ≤ i) && a.getLsbD (i - n))) ∧
     (16 ≤ n → r = 0#16))

/-- SHIFT by a negative count, 42_alu.md R96, R98 (decisions D4, D5, D6, log entry 10): floor division by the power
of two, bits moved down with copies of the sign above for amounts up to 15, and only the sign from 16 on; the
count -32768 is the amount 32768. -/
def Obligations.ShiftRightDividesByAPowerOfTwo : Prop :=
  ∀ a b : Word, b.toInt < 0 →
    (let m := (-b.toInt).toNat
     let r := (alu .shift a b).1
     r.toInt = a.toInt / 2 ^ m ∧
     (m ≤ 15 → ∀ i : Nat, i < 16 → r.getLsbD i = if i + m < 16 then a.getLsbD (i + m) else a.getLsbD 15) ∧
     (16 ≤ m → r = if a.toInt < 0 then 0xFFFF#16 else 0#16))

/-! ### The ALU instructions -/

/-- ADD, 42_alu.md R101 with R91 and R92 (decision D3, log entry 8).
`PC` is modulo 4096: R14, decision D7, log entry 9. -/
def Obligations.AddSumsAndRecordsOverflow : Prop :=
  ∀ (a : Addr) (s : State), ∃ t, exec (.add a) s = .next t ∧
    (let total := s.acc.toInt + (memRead s.mem (zext16 a)).toInt
     (t.acc.toNat : Int) = total % 65536 ∧
     t.ovf = (s.ovf || decide (total < -32767 ∨ 32767 < total))) ∧
    t.pc.toNat = (s.pc.toNat + 1) % 4096 ∧ t.run = s.run ∧ t.mem = s.mem ∧
    t.input = s.input ∧ t.consumed = s.consumed ∧ t.output = s.output

/-- SUB, 42_alu.md R102 with R93 and R92 (decision D3, log entry 8).
`PC` is modulo 4096: R14, decision D7, log entry 9. -/
def Obligations.SubSubtractsAndRecordsOverflow : Prop :=
  ∀ (a : Addr) (s : State), ∃ t, exec (.sub a) s = .next t ∧
    (let total := s.acc.toInt - (memRead s.mem (zext16 a)).toInt
     (t.acc.toNat : Int) = total % 65536 ∧
     t.ovf = (s.ovf || decide (total < -32767 ∨ 32767 < total))) ∧
    t.pc.toNat = (s.pc.toNat + 1) % 4096 ∧ t.run = s.run ∧ t.mem = s.mem ∧
    t.input = s.input ∧ t.consumed = s.consumed ∧ t.output = s.output

/-- SHIFT, 42_alu.md R103 with R96 to R99 (decisions D4, D5, D6, log entry 10): the count is the content of the
cell, read as signed. `OVF` is unchanged.
`PC` is modulo 4096: R14, decision D7, log entry 9. -/
def Obligations.ShiftByTheCellsSignedCount : Prop :=
  ∀ (a : Addr) (s : State), ∃ t, exec (.shift a) s = .next t ∧
    (let count := (memRead s.mem (zext16 a)).toInt
     (t.acc.toNat : Int) =
       (if 0 ≤ count then s.acc.toInt * 2 ^ count.toNat else s.acc.toInt / 2 ^ (-count).toNat) % 65536) ∧
    t.pc.toNat = (s.pc.toNat + 1) % 4096 ∧ t.ovf = s.ovf ∧ t.run = s.run ∧ t.mem = s.mem ∧
    t.input = s.input ∧ t.consumed = s.consumed ∧ t.output = s.output

/-- AND, 42_alu.md R104. `OVF` is unchanged.
`PC` is modulo 4096: R14, decision D7, log entry 9. -/
def Obligations.AndMasksTheAccumulator : Prop :=
  ∀ (a : Addr) (s : State), ∃ t, exec (.and a) s = .next t ∧
    (∀ i : Nat, i < 16 → t.acc.getLsbD i = (s.acc.getLsbD i && (memRead s.mem (zext16 a)).getLsbD i)) ∧
    t.pc.toNat = (s.pc.toNat + 1) % 4096 ∧ t.ovf = s.ovf ∧ t.run = s.run ∧ t.mem = s.mem ∧
    t.input = s.input ∧ t.consumed = s.consumed ∧ t.output = s.output

/-- XOR, 42_alu.md R105. `OVF` is unchanged.
`PC` is modulo 4096: R14, decision D7, log entry 9. -/
def Obligations.XorCombinesTheAccumulator : Prop :=
  ∀ (a : Addr) (s : State), ∃ t, exec (.xor a) s = .next t ∧
    (∀ i : Nat, i < 16 → t.acc.getLsbD i = (s.acc.getLsbD i ^^ (memRead s.mem (zext16 a)).getLsbD i)) ∧
    t.pc.toNat = (s.pc.toNat + 1) % 4096 ∧ t.ovf = s.ovf ∧ t.run = s.run ∧ t.mem = s.mem ∧
    t.input = s.input ∧ t.consumed = s.consumed ∧ t.output = s.output

/-! ### Control transfer -/

/-- JUMP, 43_control.md R110: `PC` takes the field's value, absolute, and nothing else changes. -/
def Obligations.JumpSetsThePcToTheField : Prop :=
  ∀ (a : Addr) (s : State), ∃ t, exec (.jump a) s = .next t ∧ t.pc = a ∧
    t.acc = s.acc ∧ t.ovf = s.ovf ∧ t.run = s.run ∧ t.mem = s.mem ∧
    t.input = s.input ∧ t.consumed = s.consumed ∧ t.output = s.output

/-- SKIPZERO, 43_control.md R111.
`PC` is modulo 4096: R14, decision D7, log entry 9. -/
def Obligations.SkipZeroTestsAllSixteenBits : Prop :=
  ∀ (a : Addr) (s : State), ∃ t, exec (.skipZero a) s = .next t ∧
    t.pc.toNat = (s.pc.toNat + (if s.acc.toNat = 0 then 2 else 1)) % 4096 ∧
    t.acc = s.acc ∧ t.ovf = s.ovf ∧ t.run = s.run ∧ t.mem = s.mem ∧
    t.input = s.input ∧ t.consumed = s.consumed ∧ t.output = s.output

/-- SKIPPOS, 43_control.md R112: the patterns 0x0001 to 0x7FFF skip, zero and the negative ones do not.
`PC` is modulo 4096: R14, decision D7, log entry 9. -/
def Obligations.SkipPosTestsStrictlyPositive : Prop :=
  ∀ (a : Addr) (s : State), ∃ t, exec (.skipPos a) s = .next t ∧
    t.pc.toNat = (s.pc.toNat + (if 1 ≤ s.acc.toNat ∧ s.acc.toNat ≤ 32767 then 2 else 1)) % 4096 ∧
    t.acc = s.acc ∧ t.ovf = s.ovf ∧ t.run = s.run ∧ t.mem = s.mem ∧
    t.input = s.input ∧ t.consumed = s.consumed ∧ t.output = s.output

/-- SKIPERR, 43_control.md R113: it tests `OVF` and does not clear it.
`PC` is modulo 4096: R14, decision D7, log entry 9. -/
def Obligations.SkipErrTestsOverflowAndKeepsIt : Prop :=
  ∀ (a : Addr) (s : State), ∃ t, exec (.skipErr a) s = .next t ∧
    t.pc.toNat = (s.pc.toNat + (if s.ovf = true then 2 else 1)) % 4096 ∧
    t.ovf = s.ovf ∧ t.acc = s.acc ∧ t.run = s.run ∧ t.mem = s.mem ∧
    t.input = s.input ∧ t.consumed = s.consumed ∧ t.output = s.output

/-! ### System and input/output -/

/-- HALT, 44_system_io.md R120: `RUN` is cleared, `PC` stays at the HALT, and nothing else changes; every word
0x0000 to 0x0FFF is a HALT; and the empty image halts at its first step. -/
def Obligations.HaltClearsRunAndKeepsPc : Prop :=
  (∀ (a : Addr) (s : State), ∃ t, exec (.halt a) s = .next t ∧ t.run = false ∧ t.pc = s.pc ∧
    t.acc = s.acc ∧ t.ovf = s.ovf ∧ t.mem = s.mem ∧
    t.input = s.input ∧ t.consumed = s.consumed ∧ t.output = s.output) ∧
  (∀ w : Word, w.toNat < 4096 → ∃ a, decode w = .halt a) ∧
  (∀ input : List Word, step (launch [] input) = .next { launch [] input with run := false })

/-- OUTPUT, 44_system_io.md R121, R122 (decision D13, log entry 5): one item, the bits of `ACC`, at the end of the
trace; it always completes.
`PC` is modulo 4096: R14, decision D7, log entry 9. -/
def Obligations.OutputAppendsTheAccumulator : Prop :=
  ∀ (a : Addr) (s : State), ∃ t, exec (.output a) s = .next t ∧
    t.output = s.output ++ [s.acc] ∧ t.pc.toNat = (s.pc.toNat + 1) % 4096 ∧
    t.acc = s.acc ∧ t.ovf = s.ovf ∧ t.run = s.run ∧ t.mem = s.mem ∧
    t.input = s.input ∧ t.consumed = s.consumed

/-- INPUT with a word available, 44_system_io.md R123, R124: `ACC` takes the first word not yet consumed, and that
word alone is consumed.
`PC` is modulo 4096: R14, decision D7, log entry 9. -/
def Obligations.InputTakesTheNextWord : Prop :=
  ∀ (a : Addr) (s : State) (w : Word) (rest : List Word), s.input = w :: rest →
    ∃ t, exec (.input a) s = .next t ∧
      t.acc = w ∧ t.input = rest ∧ t.consumed = s.consumed + 1 ∧
      t.pc.toNat = (s.pc.toNat + 1) % 4096 ∧
      t.ovf = s.ovf ∧ t.run = s.run ∧ t.mem = s.mem ∧ t.output = s.output

/-- INPUT with no word available, 44_system_io.md R124 (decision D11): nothing changes at all. That this is
answered as a step to the same state is the model's choice (log entry 3). -/
def Obligations.InputWithoutAWordChangesNothing : Prop :=
  ∀ (a : Addr) (s : State), s.input = [] → exec (.input a) s = .next s

/-! ### Memory -/

/-- 20_memory.md R31 (decision D8 for the unsigned reading, log entry 12): a read below 4096 is the cell, a read at
4096 or more is 0. -/
def Obligations.ReadsOutOfRangeReturnZero : Prop :=
  ∀ (m : Memory) (a : Word),
    (a.toNat < 4096 → memRead m a = Memory.cell m a.toNat) ∧ (4096 ≤ a.toNat → memRead m a = 0#16)

/-- 20_memory.md R32: a write below 4096 sets that cell and no other address reads differently; at 4096 or more
nothing happens at all; and the array never grows. -/
def Obligations.WritesSetOneCellOrNothing : Prop :=
  ∀ (m : Memory) (a v : Word), Memory.wf m = true →
    (∀ x : Word, memRead (memWrite m a v) x = if x = a ∧ a.toNat < 4096 then v else memRead m x) ∧
    (4096 ≤ a.toNat → memWrite m a v = m) ∧
    (∀ c ∈ memWrite m a v, c.1 < 4096)

/-- 20_memory.md R35, the source's own check: a write of 42 at 5000 is ignored and 5000 reads 0; a write of 42 at
10 reads back 42. -/
def Obligations.SourceBoundsCheckVectors : Prop :=
  ∀ m : Memory, Memory.wf m = true →
    memWrite m 5000#16 42#16 = m ∧ memRead (memWrite m 5000#16 42#16) 5000#16 = 0#16 ∧
    memRead (memWrite m 10#16 42#16) 10#16 = 42#16

/-- The canonical form does its work: two canonical memories that read alike at every cell are the same data
(log entry 1). -/
def Obligations.CanonicalMemoriesReadingAlikeAreEqual : Prop :=
  ∀ m n : Memory, Memory.wf m = true → Memory.wf n = true →
    (∀ a : Addr, memRead m (zext16 a) = memRead n (zext16 a)) → m = n

/-- 20_memory.md R39, R32 and 10_state.md R19: an instruction changes memory only at the address it presents for
its write, there to `ACC`, and only STORE and STOREI change memory at all. -/
def Obligations.MemoryChangesOnlyAtTheStoreAddress : Prop :=
  ∀ (i : Instr) (s t : State), MemoryCanonical s → exec i s = .next t →
    (∀ x : Word, memRead t.mem x =
      if storeAddress i s = some x ∧ x.toNat < 4096 then s.acc else memRead s.mem x) ∧
    (∀ a : Addr, storeAddress (.store a) s = some (zext16 a) ∧
      storeAddress (.storei a) s = some (memRead s.mem (zext16 a))) ∧
    ((∀ a, i ≠ .store a) → (∀ a, i ≠ .storei a) → t.mem = s.mem)

/-- 20_memory.md R43 (derived; decision D19): a word stored into the cell the machine fetches next is the
instruction the very next step runs. -/
def Obligations.StoredWordIsExecutedNext : Prop :=
  ∀ (i : Instr) (s t : State), MemoryCanonical s → exec i s = .next t → t.run = true →
    storeAddress i s = some (zext16 t.pc) → step t = exec (decode s.acc) t

/-! ### Whole-machine rules -/

/-- 10_state.md R15: `OVF` is written by ADD and SUB only, toward 1, by the ALU's second output; nothing clears it;
SKIPERR alone reads it; it starts at 0. -/
def Obligations.OverflowFlagIsStickyAndReadBySkipErrOnly : Prop :=
  (∀ (a : Addr) (s t : State), exec (.add a) s = .next t →
    t.ovf = (s.ovf || (alu .add s.acc (memRead s.mem (zext16 a))).2)) ∧
  (∀ (a : Addr) (s t : State), exec (.sub a) s = .next t →
    t.ovf = (s.ovf || (alu .sub s.acc (memRead s.mem (zext16 a))).2)) ∧
  (∀ (i : Instr) (s t : State), (∀ a, i ≠ .add a) → (∀ a, i ≠ .sub a) → exec i s = .next t → t.ovf = s.ovf) ∧
  (∀ (i : Instr) (s t : State), exec i s = .next t → s.ovf = true → t.ovf = true) ∧
  (∀ a b : Word, (alu .shift a b).2 = false ∧ (alu .and a b).2 = false ∧ (alu .xor a b).2 = false) ∧
  (∀ (i : Instr) (s t : State) (flag : Bool), (∀ a, i ≠ .skipErr a) → exec i s = .next t →
    ∃ t', exec i { s with ovf := flag } = .next t' ∧ { t' with ovf := t.ovf } = t) ∧
  State.reset.ovf = false ∧ ∀ image input : List Word, (launch image input).ovf = false

/-- 10_state.md R11: `ACC` is written by LOAD, LOADI, INPUT, ADD, SUB, SHIFT, AND and XOR and by nothing else. -/
def Obligations.OnlyEightInstructionsWriteTheAccumulator : Prop :=
  ∀ (i : Instr) (s t : State), exec i s = .next t →
    (∀ a, i ≠ .load a) → (∀ a, i ≠ .loadi a) → (∀ a, i ≠ .input a) → (∀ a, i ≠ .add a) → (∀ a, i ≠ .sub a) →
    (∀ a, i ≠ .shift a) → (∀ a, i ≠ .and a) → (∀ a, i ≠ .xor a) → t.acc = s.acc

/-- 10_state.md R11: HALT, JUMP, SKIPERR, LOAD, LOADI and INPUT do not read `ACC`: run from two states that differ
in `ACC` alone they do the same to everything else, and LOAD and LOADI leave the same `ACC` too. -/
def Obligations.SixInstructionsDoNotReadTheAccumulator : Prop :=
  ∀ (i : Instr) (a : Addr) (s t : State) (v : Word),
    (i = .halt a ∨ i = .jump a ∨ i = .skipErr a ∨ i = .load a ∨ i = .loadi a ∨ i = .input a) →
    exec i s = .next t →
    ∃ t', exec i { s with acc := v } = .next t' ∧ { t' with acc := t.acc } = t ∧
      ((i = .load a ∨ i = .loadi a) → t' = t)

/-- 10_state.md R13: no instruction reads `PC`: run from two states that differ in `PC` alone, an instruction does
the same to everything but `PC`. -/
def Obligations.NoInstructionReadsThePc : Prop :=
  ∀ (i : Instr) (s t : State) (p : Addr), exec i s = .next t →
    ∃ t', exec i { s with pc := p } = .next t' ∧ { t' with pc := t.pc } = t

/-- 10_state.md R13's table of `PC` updates with R14 (decision D7, log entry 9). INPUT with no word stays where it
is (44_system_io.md R124, log entry 3). -/
def Obligations.PcMovesByTheUpdateTable : Prop :=
  ∀ (i : Instr) (s t : State), exec i s = .next t →
    match i with
    | .halt _ => t.pc = s.pc
    | .jump a => t.pc = a
    | .skipZero _ => t.pc.toNat = if s.acc = 0#16 then (s.pc.toNat + 2) % 4096 else (s.pc.toNat + 1) % 4096
    | .skipPos _ => t.pc.toNat = if 0 < s.acc.toInt then (s.pc.toNat + 2) % 4096 else (s.pc.toNat + 1) % 4096
    | .skipErr _ => t.pc.toNat = if s.ovf then (s.pc.toNat + 2) % 4096 else (s.pc.toNat + 1) % 4096
    | .input _ => t.pc.toNat = if s.input = [] then s.pc.toNat else (s.pc.toNat + 1) % 4096
    | .load _ => t.pc.toNat = (s.pc.toNat + 1) % 4096
    | .store _ => t.pc.toNat = (s.pc.toNat + 1) % 4096
    | .add _ => t.pc.toNat = (s.pc.toNat + 1) % 4096
    | .sub _ => t.pc.toNat = (s.pc.toNat + 1) % 4096
    | .output _ => t.pc.toNat = (s.pc.toNat + 1) % 4096
    | .loadi _ => t.pc.toNat = (s.pc.toNat + 1) % 4096
    | .storei _ => t.pc.toNat = (s.pc.toNat + 1) % 4096
    | .shift _ => t.pc.toNat = (s.pc.toNat + 1) % 4096
    | .and _ => t.pc.toNat = (s.pc.toNat + 1) % 4096
    | .xor _ => t.pc.toNat = (s.pc.toNat + 1) % 4096

/-- 10_state.md R17: HALT alone clears `RUN`, and no instruction sets it. -/
def Obligations.OnlyHaltChangesTheRunFlag : Prop :=
  ∀ (i : Instr) (s t : State), exec i s = .next t →
    ((∃ a, i = .halt a) → t.run = false) ∧ ((∀ a, i ≠ .halt a) → t.run = s.run)

/-- 44_system_io.md R121, R122: a step adds the bits of `ACC` to the output trace when it executes an OUTPUT, and
otherwise leaves the trace alone. -/
def Obligations.OnlyOutputExtendsTheTrace : Prop :=
  ∀ s t : State, step s = .next t →
    ((s.run = true ∧ ∃ a, decode (fetch s) = .output a) → t.output = s.output ++ [s.acc]) ∧
    (¬ (s.run = true ∧ ∃ a, decode (fetch s) = .output a) → t.output = s.output)

/-- 44_system_io.md R123, R124: a step consumes an input word when it executes an INPUT with one available, exactly
the first, and otherwise consumes none. -/
def Obligations.OnlyInputConsumesAWord : Prop :=
  ∀ s t : State, step s = .next t →
    (∀ w rest, s.run = true → (∃ a, decode (fetch s) = .input a) → s.input = w :: rest →
      t.input = rest ∧ t.consumed = s.consumed + 1 ∧ t.acc = w) ∧
    (¬ (s.run = true ∧ ∃ a, decode (fetch s) = .input a) → t.input = s.input ∧ t.consumed = s.consumed) ∧
    (s.input = [] → t.input = [] ∧ t.consumed = s.consumed)

/-! ### Launch, invariants, runs -/

/-- The launch, 70_reset_and_hazards.md R150, R153, R154 and 10_state.md R25 (decisions D11, D13, D15, D16): the
image from address 0 up, words beyond 4095 dropped, every other cell 0, and the registers and ports at their
initial values. -/
def Obligations.LaunchLoadsTheImageAndClearsTheRest : Prop :=
  ∀ image input : List Word,
    (let s := launch image input
     s.acc = 0#16 ∧ s.pc = 0#12 ∧ s.ovf = false ∧ s.run = true ∧ s.input = input ∧ s.consumed = 0 ∧
     s.output = [] ∧ ∀ a : Addr, memRead s.mem (zext16 a) = (image[a.toNat]?).getD 0#16)

/-- 10_state.md R25 and 70_reset_and_hazards.md R151: the reset state holds the launch values with every cell 0
(image and input empty: log entry 7), and the run from it ends at its first step, at the HALT in cell 0. -/
def Obligations.ResetIsTheEmptyLaunch : Prop :=
  State.reset = launch [] [] ∧ State.reset.acc = 0#16 ∧ State.reset.pc = 0#12 ∧ State.reset.ovf = false ∧
  State.reset.run = true ∧ (∀ x : Word, memRead State.reset.mem x = 0#16) ∧
  step State.reset = .next { State.reset with run := false }

/-- Memory is canonical at reset and after every launch (log entry 1). -/
def Obligations.LaunchMemoryIsCanonical : Prop :=
  MemoryCanonical State.reset ∧ ∀ image input : List Word, MemoryCanonical (launch image input)

/-- Every step keeps memory canonical: rising addresses, all below 4096, no listed zero (20_memory.md R33, "no
access ever faults or grows memory"; log entry 1). -/
def Obligations.EveryStepKeepsMemoryCanonical : Prop :=
  ∀ s t : State, MemoryCanonical s → step s = .next t → MemoryCanonical t

/-- 60_exceptions.md R136, 70_reset_and_hazards.md R162: a halt is precise. Every step keeps it true that a halted
machine has a HALT at its `PC`; so in every run from a launch, a halted machine stands at the HALT that stopped
it. -/
def Obligations.HaltedMachineStandsAtAHalt : Prop :=
  (∀ s t : State, (Halted s → ∃ a, decode (fetch s) = .halt a) → step s = .next t →
    Halted t → ∃ a, decode (fetch t) = .halt a) ∧
  (∀ (image input : List Word) (k : Nat) (t : State), RunsTo k (launch image input) t → Halted t →
    ∃ a, decode (fetch t) = .halt a)

/-- Over any number of steps from any state: the output trace only grows at its end (44_system_io.md R122), input
words are consumed from the front and counted (R124), `OVF` once set stays set (10_state.md R15), a halted
machine never runs again (R17), and memory stays canonical (log entry 1). -/
def Obligations.RunsOnlyExtendTheirHistory : Prop :=
  ∀ (k : Nat) (s t : State), RunsTo k s t →
    (∃ more, t.output = s.output ++ more) ∧
    (∃ used, s.input = used ++ t.input ∧ t.consumed = s.consumed + used.length) ∧
    (s.ovf = true → t.ovf = true) ∧ (s.run = false → t = s) ∧ (MemoryCanonical s → MemoryCanonical t)

/-- 40_step_cycle.md R74, R75 and 70_reset_and_hazards.md R162: what a run has done does not depend on input it has
not asked for: if the machine never waited on the way, supplying more words leaves the run as it is but for the
words left over. -/
def Obligations.UnaskedInputLeavesTheRunAlone : Prop :=
  ∀ (k : Nat) (s t : State) (words : List Word),
    (∀ j u, j < k → RunsTo j s u → ¬ Waiting u) → RunsTo k s t →
    RunsTo k (supplyInput words s) (supplyInput words t)

/-- Read-back, 10_state.md R23, 70_reset_and_hazards.md R162: nothing while the machine runs, and after a halt the
trace, the registers, memory and the number of words consumed. -/
def Obligations.ReadBackAfterHaltOnly : Prop :=
  ∀ s : State, (haltedStatus s = true ↔ Halted s) ∧ (s.run = true → readBack s = none) ∧
    (Halted s → ∃ r, readBack s = some r ∧ r.output = s.output ∧ r.acc = s.acc ∧ r.pc = s.pc ∧ r.ovf = s.ovf ∧
      (∀ x : Word, memRead r.mem x = memRead s.mem x) ∧ r.consumed = s.consumed)

/-! ### ADD and SUB, seen signed -/

/-- ADD and SUB complete in every state, 42_alu.md R101, R102 with R91 to R93: while the true result `total` stays
within -32767 to 32767 `ACC` is exactly it and `OVF` is kept; outside, `OVF` is set and `ACC` is the true result
wrapped, -32768 being exact all the same (R92, decision D3, log entry 8; signed readings: decisions D1, D2, log
entries 10 and 11). `PC` is modulo 4096: R14, decision D7, log entry 9. -/
def Obligations.AddAndSubAreExactUntilTheyOverflow : Prop :=
  ∀ (a : Addr) (s : State) (i : Instr) (total : Int),
    ((i = .add a ∧ total = s.acc.toInt + (memRead s.mem (zext16 a)).toInt) ∨
     (i = .sub a ∧ total = s.acc.toInt - (memRead s.mem (zext16 a)).toInt)) →
    ∃ t, exec i s = .next t ∧
      (-32767 ≤ total → total ≤ 32767 → t.acc.toInt = total ∧ t.ovf = s.ovf) ∧
      (total < -32767 → t.ovf = true) ∧ (32767 < total → t.ovf = true) ∧
      (total = -32768 → t.acc.toInt = total) ∧
      (32767 < total → t.acc.toInt = total - 65536) ∧
      (total < -32768 → t.acc.toInt = total + 65536) ∧
      t.pc.toNat = (s.pc.toNat + 1) % 4096 ∧ t.run = s.run ∧ t.mem = s.mem ∧
      t.input = s.input ∧ t.consumed = s.consumed ∧ t.output = s.output
end

