-- ==== Sys2Proof/Laws/Arith.lean ====
section
/-! SUPPORT. The arithmetic the operations are written in, as facts about numbers. -/

namespace Sys2Proof.Machine

/-- The signed reading from the unsigned one (00_scope.md R7). -/
theorem toInt_word (w : Word) : w.toInt = if w.toNat < 32768 then (w.toNat : Int) else w.toNat - 65536 := by
  rw [BitVec.toInt_eq_toNat_cond]
  have := w.isLt
  split <;> split <;> omega

/-- Truncation is reduction modulo 65536 (00_scope.md R7). -/
theorem toNat_trunc16 (z : Int) : ((trunc16 z).toNat : Int) = z % 65536 := by
  rw [trunc16, BitVec.toNat_ofInt]
  simp
  omega

/-- The program counter as a number: one cell on (10_state.md R14). -/
theorem toNat_pc_add_one (p : Addr) : (p + BitVec.ofNat 12 1).toNat = (p.toNat + 1) % 4096 := by
  simp [BitVec.toNat_add]

/-- The program counter as a number: two cells on (10_state.md R14). -/
theorem toNat_pc_add_two (p : Addr) : (p + BitVec.ofNat 12 2).toNat = (p.toNat + 2) % 4096 := by
  simp [BitVec.toNat_add]

/-- The overflow test as a fact about the true result. -/
theorem overflowed_iff (t : Int) : overflowed t = true ↔ t < -32767 ∨ 32767 < t := by
  unfold overflowed
  rw [Bool.or_eq_true, decide_eq_true_iff, decide_eq_true_iff]
  rfl

/-- SKIPZERO's condition. -/
theorem accIsZero_iff (w : Word) : accIsZero w = true ↔ w = 0#16 := by
  simp [accIsZero]

/-- SKIPPOS's condition. -/
theorem accIsPositive_iff (w : Word) : accIsPositive w = true ↔ 0 < w.toInt := by
  simp [accIsPositive]

/-- A count that is not negative shifts left. -/
theorem shiftResult_left {count : Int} (h : 0 ≤ count) (a : Word) :
    shiftResult a count = shiftLeftBy a count.toNat := if_pos h

/-- A negative count shifts right. -/
theorem shiftResult_right {count : Int} (h : count < 0) (a : Word) :
    shiftResult a count = shiftRightBy a (-count).toNat := if_neg (by omega)

end Sys2Proof.Machine
end

