-- ==== Sys2Proof/Laws/Decode.lean ====
section
/-! SUPPORT. The fields of a word that is an opcode followed by an address. -/

namespace Sys2Proof

@[simp] theorem opcodeField_append (op : BitVec 4) (a : Addr) : opcodeField (op ++ a) = op := by
  unfold opcodeField
  exact BitVec.extractLsb'_append_eq_left

@[simp] theorem addressField_append (op : BitVec 4) (a : Addr) : addressField (op ++ a) = a := by
  unfold addressField
  exact BitVec.extractLsb'_append_eq_right

/-- Every word is its opcode field followed by its address field. -/
theorem fields_append (w : Word) : opcodeField w ++ addressField w = w := by
  apply BitVec.eq_of_getLsbD_eq
  intro i hi
  simp only [BitVec.getLsbD_append, opcodeField, addressField, BitVec.getLsbD_extractLsb']
  by_cases h : i < 12
  · simp [h]
  · have : 12 + (i - 12) = i := by omega
    simp [h, this]
    omega

/-- A word is its two fields: the case split every claim about all words starts from. -/
theorem exists_fields (w : Word) : ∃ (op : BitVec 4) (a : Addr), w = op ++ a :=
  ⟨_, _, (fields_append w).symm⟩

/-- Decoding a word made of two fields is reading the table. -/
@[simp] theorem decode_append (op : BitVec 4) (a : Addr) : decode (op ++ a) = ofFields op a := by
  simp [decode]

end Sys2Proof
end

