-- ==== Sys2Proof/Laws/Memory.lean ====
section
/-! SUPPORT. What the memory operations do: reading after writing, and that every one of them keeps the
canonical form. -/

namespace Sys2Proof.Machine

namespace Memory

@[simp] theorem wf_nil : Memory.wf [] = true := rfl

@[simp] theorem cell_nil (i : Nat) : Memory.cell [] i = Memory.unlisted := rfl

/-- The canonical form, one entry at a time. -/
@[simp] theorem wfFrom_cons (lo k : Nat) (v : Word) (rest : Memory) :
    Memory.wfFrom lo ((k, v) :: rest) = true ↔
      lo ≤ k ∧ k < Config.memorySize ∧ v ≠ Memory.unlisted ∧ Memory.wfFrom (k + 1) rest = true := by
  simp [Memory.wfFrom, and_assoc]

/-- A memory canonical from `hi` up is canonical from any lower address up. -/
theorem wfFrom_mono {lo hi : Nat} (h : lo ≤ hi) : ∀ {m : Memory}, Memory.wfFrom hi m = true → Memory.wfFrom lo m = true
  | [], _ => rfl
  | (k, v) :: rest, hm => by
    rw [wfFrom_cons] at hm ⊢
    exact ⟨h.trans hm.1, hm.2⟩

/-- Below its first listed address a canonical memory reads as unlisted. -/
theorem cell_below {lo : Nat} : ∀ {m : Memory} {i : Nat}, Memory.wfFrom lo m = true → i < lo →
    Memory.cell m i = Memory.unlisted
  | [], _, _, _ => rfl
  | (k, v) :: rest, i, hm, hi => by
    rw [wfFrom_cons] at hm
    simp [Memory.cell, show i < k by omega]

/-- Setting a cell keeps the canonical form. -/
theorem wfFrom_setCell {i : Nat} (v : Word) (hi : i < Config.memorySize) :
    ∀ {lo : Nat} {m : Memory}, lo ≤ i → Memory.wfFrom lo m = true → Memory.wfFrom lo (Memory.setCell m i v) = true
  | lo, [], hlo, _ => by
    unfold Memory.setCell
    split <;> simp_all [Memory.wfFrom]
  | lo, (k, x) :: rest, hlo, hm => by
    have ⟨h1, h2, h3, h4⟩ := (wfFrom_cons ..).mp hm
    unfold Memory.setCell
    split
    · split
      · exact hm
      · rename_i h5 h6
        exact (wfFrom_cons ..).mpr ⟨hlo, hi, h6, (wfFrom_cons ..).mpr ⟨h5, h2, h3, h4⟩⟩
    · split
      · rename_i h5 h6
        subst h6
        split
        · exact wfFrom_mono (by omega) h4
        · rename_i h7
          exact (wfFrom_cons ..).mpr ⟨h1, hi, h7, h4⟩
      · exact (wfFrom_cons ..).mpr ⟨h1, h2, h3, wfFrom_setCell v hi (by omega) h4⟩

/-- Reading a cell after setting one. -/
theorem cell_setCell {i : Nat} (v : Word) (j : Nat) : ∀ {lo : Nat} {m : Memory}, Memory.wfFrom lo m = true →
    Memory.cell (Memory.setCell m i v) j = if j = i then v else Memory.cell m j
  | lo, [], _ => by
    unfold Memory.setCell
    by_cases hv : v = Memory.unlisted <;> by_cases hj : j = i <;> simp_all [Memory.cell]
  | lo, (k, x) :: rest, hm => by
    have ⟨h1, h2, h3, h4⟩ := (wfFrom_cons ..).mp hm
    unfold Memory.setCell
    by_cases hik : i < k
    · by_cases hv : v = Memory.unlisted <;> by_cases hj : j = i
      · subst hv hj; simp [Memory.cell, hik]
      · simp [hik, hv, hj]
      · subst hj; simp [Memory.cell, hik, hv]
      · by_cases hlt : j < i
        · simp [Memory.cell, hik, hv, hj, hlt, show j < k by omega]
        · simp [Memory.cell, hik, hv, hj, hlt]
    · by_cases hk : i = k
      · subst hk
        by_cases hj : j = i
        · subst hj
          by_cases hv : v = Memory.unlisted
          · subst hv
            simp [cell_below h4]
          · simp [Memory.cell, hv]
        · by_cases hv : v = Memory.unlisted
          · by_cases hlt : j < i
            · simp [Memory.cell, hv, hj, hlt, cell_below h4 (show j < i + 1 by omega)]
            · simp [Memory.cell, hv, hj, hlt]
          · simp [Memory.cell, hv, hj]
      · by_cases hjk : j < k
        · simp [Memory.cell, hik, hk, hjk, show j ≠ i by omega]
        · by_cases hj : j = k
          · subst hj
            simp [Memory.cell, hik, hk, show ¬ j = i by omega]
          · simp [Memory.cell, hik, hk, hjk, hj, cell_setCell v j h4]

end Memory

/-- The bounds check as a fact about numbers. -/
@[simp] theorem inRange_eq_true (a : Word) : inRange a = true ↔ a.toNat < 4096 := by
  unfold inRange
  rw [decide_eq_true_iff]
  rfl

/-- Zero-extension does not change the address. -/
@[simp] theorem toNat_zext16 (a : Addr) : (zext16 a).toNat = a.toNat := by
  simp only [zext16, BitVec.toNat_setWidth]
  omega

/-- The program counter and a direct address never miss memory (20_memory.md R34). -/
@[simp] theorem inRange_zext16 (a : Addr) : inRange (zext16 a) = true := by
  rw [inRange_eq_true, toNat_zext16]
  exact a.isLt

/-- Two 12-bit addresses on the 16-bit port are the same only if they are the same. -/
@[simp] theorem zext16_inj (a b : Addr) : zext16 a = zext16 b ↔ a = b := by
  constructor
  · intro h
    apply BitVec.eq_of_toNat_eq
    rw [← toNat_zext16 a, ← toNat_zext16 b, h]
  · rintro rfl
    rfl

/-- A direct read is the cell itself. -/
theorem memRead_zext16 (m : Memory) (a : Addr) : memRead m (zext16 a) = Memory.cell m a.toNat := by
  simp [memRead, inRange_zext16, uval]

/-- What the memory's write does to its canonical form: nothing. -/
theorem wf_memWrite {m : Memory} (h : Memory.wf m = true) (a v : Word) : Memory.wf (memWrite m a v) = true := by
  unfold memWrite
  split
  · rename_i ha
    exact Memory.wfFrom_setCell v (by simpa [inRange] using ha) (Nat.zero_le _) h
  · exact h

/-- The host load keeps the canonical form. -/
theorem wf_loadFrom : ∀ (image : List Word) {m : Memory} (i : Nat), Memory.wf m = true →
    Memory.wf (loadFrom m i image) = true
  | [], _, _, h => h
  | w :: rest, m, i, h => by
    unfold loadFrom
    apply wf_loadFrom rest
    split
    · exact wf_memWrite h _ _
    · exact h

/-- A store through the memory interface keeps the canonical form. -/
theorem wf_write {s : State} (h : Memory.wf s.mem = true) (a v : Word) : Memory.wf (s.write a v).mem = true :=
  wf_memWrite h a v

/-- Reset memory is canonical. -/
theorem wf_reset : Memory.wf State.reset.mem = true := rfl

end Sys2Proof.Machine
end

