-- ==== Sys2Proof/Laws/State.lean ====
section
/-! SUPPORT. One lemma per field per update of the state, each true by `rfl` and tagged for `simp`. -/

namespace Sys2Proof.Machine.State

variable (s : State)

@[simp] theorem setAcc_acc (v : Word) : (s.setAcc v).acc = v := rfl
@[simp] theorem setAcc_pc (v : Word) : (s.setAcc v).pc = s.pc := rfl
@[simp] theorem setAcc_ovf (v : Word) : (s.setAcc v).ovf = s.ovf := rfl
@[simp] theorem setAcc_run (v : Word) : (s.setAcc v).run = s.run := rfl
@[simp] theorem setAcc_mem (v : Word) : (s.setAcc v).mem = s.mem := rfl
@[simp] theorem setAcc_input (v : Word) : (s.setAcc v).input = s.input := rfl
@[simp] theorem setAcc_consumed (v : Word) : (s.setAcc v).consumed = s.consumed := rfl
@[simp] theorem setAcc_output (v : Word) : (s.setAcc v).output = s.output := rfl

@[simp] theorem setPc_acc (t : Addr) : (s.setPc t).acc = s.acc := rfl
@[simp] theorem setPc_pc (t : Addr) : (s.setPc t).pc = t := rfl
@[simp] theorem setPc_ovf (t : Addr) : (s.setPc t).ovf = s.ovf := rfl
@[simp] theorem setPc_run (t : Addr) : (s.setPc t).run = s.run := rfl
@[simp] theorem setPc_mem (t : Addr) : (s.setPc t).mem = s.mem := rfl
@[simp] theorem setPc_input (t : Addr) : (s.setPc t).input = s.input := rfl
@[simp] theorem setPc_consumed (t : Addr) : (s.setPc t).consumed = s.consumed := rfl
@[simp] theorem setPc_output (t : Addr) : (s.setPc t).output = s.output := rfl

@[simp] theorem advance_acc (k : Nat) : (s.advance k).acc = s.acc := rfl
@[simp] theorem advance_pc (k : Nat) : (s.advance k).pc = s.pc + BitVec.ofNat 12 k := rfl
@[simp] theorem advance_ovf (k : Nat) : (s.advance k).ovf = s.ovf := rfl
@[simp] theorem advance_run (k : Nat) : (s.advance k).run = s.run := rfl
@[simp] theorem advance_mem (k : Nat) : (s.advance k).mem = s.mem := rfl
@[simp] theorem advance_input (k : Nat) : (s.advance k).input = s.input := rfl
@[simp] theorem advance_consumed (k : Nat) : (s.advance k).consumed = s.consumed := rfl
@[simp] theorem advance_output (k : Nat) : (s.advance k).output = s.output := rfl

@[simp] theorem orOvf_acc (v : Bool) : (s.orOvf v).acc = s.acc := rfl
@[simp] theorem orOvf_pc (v : Bool) : (s.orOvf v).pc = s.pc := rfl
@[simp] theorem orOvf_ovf (v : Bool) : (s.orOvf v).ovf = (s.ovf || v) := rfl
@[simp] theorem orOvf_run (v : Bool) : (s.orOvf v).run = s.run := rfl
@[simp] theorem orOvf_mem (v : Bool) : (s.orOvf v).mem = s.mem := rfl
@[simp] theorem orOvf_input (v : Bool) : (s.orOvf v).input = s.input := rfl
@[simp] theorem orOvf_consumed (v : Bool) : (s.orOvf v).consumed = s.consumed := rfl
@[simp] theorem orOvf_output (v : Bool) : (s.orOvf v).output = s.output := rfl

@[simp] theorem clearRun_acc : (s.clearRun).acc = s.acc := rfl
@[simp] theorem clearRun_pc : (s.clearRun).pc = s.pc := rfl
@[simp] theorem clearRun_ovf : (s.clearRun).ovf = s.ovf := rfl
@[simp] theorem clearRun_run : (s.clearRun).run = false := rfl
@[simp] theorem clearRun_mem : (s.clearRun).mem = s.mem := rfl
@[simp] theorem clearRun_input : (s.clearRun).input = s.input := rfl
@[simp] theorem clearRun_consumed : (s.clearRun).consumed = s.consumed := rfl
@[simp] theorem clearRun_output : (s.clearRun).output = s.output := rfl

@[simp] theorem write_acc (a v : Word) : (s.write a v).acc = s.acc := rfl
@[simp] theorem write_pc (a v : Word) : (s.write a v).pc = s.pc := rfl
@[simp] theorem write_ovf (a v : Word) : (s.write a v).ovf = s.ovf := rfl
@[simp] theorem write_run (a v : Word) : (s.write a v).run = s.run := rfl
@[simp] theorem write_mem (a v : Word) : (s.write a v).mem = memWrite s.mem a v := rfl
@[simp] theorem write_input (a v : Word) : (s.write a v).input = s.input := rfl
@[simp] theorem write_consumed (a v : Word) : (s.write a v).consumed = s.consumed := rfl
@[simp] theorem write_output (a v : Word) : (s.write a v).output = s.output := rfl

@[simp] theorem emit_acc (v : Word) : (s.emit v).acc = s.acc := rfl
@[simp] theorem emit_pc (v : Word) : (s.emit v).pc = s.pc := rfl
@[simp] theorem emit_ovf (v : Word) : (s.emit v).ovf = s.ovf := rfl
@[simp] theorem emit_run (v : Word) : (s.emit v).run = s.run := rfl
@[simp] theorem emit_mem (v : Word) : (s.emit v).mem = s.mem := rfl
@[simp] theorem emit_input (v : Word) : (s.emit v).input = s.input := rfl
@[simp] theorem emit_consumed (v : Word) : (s.emit v).consumed = s.consumed := rfl
@[simp] theorem emit_output (v : Word) : (s.emit v).output = s.output ++ [v] := rfl

end Sys2Proof.Machine.State

namespace Sys2Proof.Machine

variable (s : State)

@[simp] theorem supplyInput_acc (ws : List Word) : (supplyInput ws s).acc = s.acc := rfl
@[simp] theorem supplyInput_pc (ws : List Word) : (supplyInput ws s).pc = s.pc := rfl
@[simp] theorem supplyInput_ovf (ws : List Word) : (supplyInput ws s).ovf = s.ovf := rfl
@[simp] theorem supplyInput_run (ws : List Word) : (supplyInput ws s).run = s.run := rfl
@[simp] theorem supplyInput_mem (ws : List Word) : (supplyInput ws s).mem = s.mem := rfl
@[simp] theorem supplyInput_input (ws : List Word) : (supplyInput ws s).input = s.input ++ ws := rfl
@[simp] theorem supplyInput_consumed (ws : List Word) : (supplyInput ws s).consumed = s.consumed := rfl
@[simp] theorem supplyInput_output (ws : List Word) : (supplyInput ws s).output = s.output := rfl

@[simp] theorem placeAtFetch_acc (w : Word) : (placeAtFetch s w).acc = s.acc := rfl
@[simp] theorem placeAtFetch_pc (w : Word) : (placeAtFetch s w).pc = s.pc := rfl
@[simp] theorem placeAtFetch_ovf (w : Word) : (placeAtFetch s w).ovf = s.ovf := rfl
@[simp] theorem placeAtFetch_run (w : Word) : (placeAtFetch s w).run = true := rfl
@[simp] theorem placeAtFetch_mem (w : Word) : (placeAtFetch s w).mem = memWrite s.mem (zext16 s.pc) w := rfl
@[simp] theorem placeAtFetch_input (w : Word) : (placeAtFetch s w).input = s.input := rfl
@[simp] theorem placeAtFetch_consumed (w : Word) : (placeAtFetch s w).consumed = s.consumed := rfl
@[simp] theorem placeAtFetch_output (w : Word) : (placeAtFetch s w).output = s.output := rfl

@[simp] theorem launch_acc (image input : List Word) : (launch image input).acc = State.reset.acc := rfl
@[simp] theorem launch_pc (image input : List Word) : (launch image input).pc = State.reset.pc := rfl
@[simp] theorem launch_ovf (image input : List Word) : (launch image input).ovf = State.reset.ovf := rfl
@[simp] theorem launch_run (image input : List Word) : (launch image input).run = State.reset.run := rfl
@[simp] theorem launch_mem (image input : List Word) : (launch image input).mem = loadFrom [] 0 image := rfl
@[simp] theorem launch_input (image input : List Word) : (launch image input).input = input := rfl
@[simp] theorem launch_consumed (image input : List Word) : (launch image input).consumed = State.reset.consumed := rfl
@[simp] theorem launch_output (image input : List Word) : (launch image input).output = State.reset.output := rfl

end Sys2Proof.Machine
end

