-- ==== Sys2Proof/Laws/Exec.lean ====
section
/-! SUPPORT. What each shared operation and each instruction answers, said once, in the model's own
operations; claims cite these equations and do not unfold the meanings. -/

namespace Sys2Proof.Machine

variable (a : Addr) (s : State)

theorem skipIf_eq (c : Bool) : skipIf c s = .next (s.advance (if c then 2 else 1)) := rfl

theorem aluWithFlag_eq (op : AluOp) : aluWithFlag op a s =
    .next (((s.setAcc (alu op s.acc (directOperand a s)).1).orOvf (alu op s.acc (directOperand a s)).2).advance 1) := rfl

theorem aluWithoutFlag_eq (op : AluOp) : aluWithoutFlag op a s =
    .next ((s.setAcc (alu op s.acc (directOperand a s)).1).advance 1) := rfl

theorem takeInput_nil {s : State} (h : s.input = []) : takeInput s = none := by
  simp [takeInput, h]

theorem takeInput_cons {s : State} {w : Word} {rest : List Word} (h : s.input = w :: rest) :
    takeInput s = some (w, { s with input := rest, consumed := s.consumed + 1 }) := by
  simp [takeInput, h]

@[simp] theorem exec_halt : exec (.halt a) s = .next s.clearRun := rfl
@[simp] theorem exec_load : exec (.load a) s = .next ((s.setAcc (directOperand a s)).advance 1) := rfl
@[simp] theorem exec_store : exec (.store a) s = .next ((s.write (zext16 a) s.acc).advance 1) := rfl
@[simp] theorem exec_add : exec (.add a) s = aluWithFlag .add a s := rfl
@[simp] theorem exec_sub : exec (.sub a) s = aluWithFlag .sub a s := rfl
@[simp] theorem exec_output : exec (.output a) s = .next ((s.emit s.acc).advance 1) := rfl
@[simp] theorem exec_jump : exec (.jump a) s = .next (s.setPc a) := rfl
@[simp] theorem exec_skipZero : exec (.skipZero a) s = skipIf (accIsZero s.acc) s := rfl
@[simp] theorem exec_skipPos : exec (.skipPos a) s = skipIf (accIsPositive s.acc) s := rfl
@[simp] theorem exec_skipErr : exec (.skipErr a) s = skipIf s.ovf s := rfl
@[simp] theorem exec_loadi : exec (.loadi a) s = .next ((s.setAcc (indirectOperand a s)).advance 1) := rfl
@[simp] theorem exec_storei : exec (.storei a) s = .next ((s.write (pointer a s) s.acc).advance 1) := rfl
@[simp] theorem exec_shift : exec (.shift a) s = aluWithoutFlag .shift a s := rfl
@[simp] theorem exec_and : exec (.and a) s = aluWithoutFlag .and a s := rfl
@[simp] theorem exec_xor : exec (.xor a) s = aluWithoutFlag .xor a s := rfl

/-- INPUT with nothing to read leaves the state alone. -/
theorem exec_input_nil {s : State} (h : s.input = []) : exec (.input a) s = .next s := by
  simp [exec, execInput, takeInput_nil h, idle]

/-- INPUT with a word to read consumes it. -/
theorem exec_input_cons {s : State} {w : Word} {rest : List Word} (h : s.input = w :: rest) :
    exec (.input a) s =
      .next (({ s with input := rest, consumed := s.consumed + 1 }.setAcc w).advance 1) := by
  simp [exec, execInput, takeInput_cons h]

/-- A running machine runs the instruction it fetches. -/
theorem step_running {s : State} (h : s.run = true) : step s = exec (decode (fetch s)) s := by
  simp [step, h]

/-- A halted machine does not move. -/
theorem step_halted {s : State} (h : s.run = false) : step s = .next s := by
  simp [step, h, idle]

end Sys2Proof.Machine
end

