-- ==== Sys2Proof/Laws/PerInstr.lean ====
section
/-! SUPPORT. Statements about every instruction as syntax, one lemma per constructor. Family `WordFields`: the
word of an instruction holds its opcode in bits [15:12] and its address in bits [11:0]
(30_encoding.md R50, R52). -/

namespace Sys2Proof.Laws.WordFields

def Statement (i : Instr) : Prop := opcodeField (encode i) = i.opcode ∧ addressField (encode i) = i.address

theorem halt (a : Addr) : Statement (.halt a) := ⟨opcodeField_append _ a, addressField_append _ a⟩
theorem load (a : Addr) : Statement (.load a) := ⟨opcodeField_append _ a, addressField_append _ a⟩
theorem store (a : Addr) : Statement (.store a) := ⟨opcodeField_append _ a, addressField_append _ a⟩
theorem add (a : Addr) : Statement (.add a) := ⟨opcodeField_append _ a, addressField_append _ a⟩
theorem sub (a : Addr) : Statement (.sub a) := ⟨opcodeField_append _ a, addressField_append _ a⟩
theorem input (a : Addr) : Statement (.input a) := ⟨opcodeField_append _ a, addressField_append _ a⟩
theorem output (a : Addr) : Statement (.output a) := ⟨opcodeField_append _ a, addressField_append _ a⟩
theorem jump (a : Addr) : Statement (.jump a) := ⟨opcodeField_append _ a, addressField_append _ a⟩
theorem skipZero (a : Addr) : Statement (.skipZero a) := ⟨opcodeField_append _ a, addressField_append _ a⟩
theorem skipPos (a : Addr) : Statement (.skipPos a) := ⟨opcodeField_append _ a, addressField_append _ a⟩
theorem skipErr (a : Addr) : Statement (.skipErr a) := ⟨opcodeField_append _ a, addressField_append _ a⟩
theorem loadi (a : Addr) : Statement (.loadi a) := ⟨opcodeField_append _ a, addressField_append _ a⟩
theorem storei (a : Addr) : Statement (.storei a) := ⟨opcodeField_append _ a, addressField_append _ a⟩
theorem shift (a : Addr) : Statement (.shift a) := ⟨opcodeField_append _ a, addressField_append _ a⟩
theorem and (a : Addr) : Statement (.and a) := ⟨opcodeField_append _ a, addressField_append _ a⟩
theorem xor (a : Addr) : Statement (.xor a) := ⟨opcodeField_append _ a, addressField_append _ a⟩

end Sys2Proof.Laws.WordFields
end

