-- ==== Sys2Proof/Laws/Run.lean ====
section
/-! SUPPORT. Runs of `k` steps, one step at a time, and the one induction over them. -/

namespace Sys2Proof.Machine

@[simp] theorem runsTo_zero (s t : State) : RunsTo 0 s t ↔ s = t := by
  unfold RunsTo
  constructor
  · intro h
    exact Host.Outcome.next.inj h
  · rintro rfl
    rfl

/-- The host's run of `k + 1` steps is a step and a run of `k`. -/
theorem core_run_succ (M : Host.Core) (k : Nat) (s t : M.State) :
    M.run (k + 1) s = .next t ↔ ∃ u, M.step s = .next u ∧ M.run k u = .next t := by
  rw [Host.Core.run]
  cases M.step s <;> simp

/-- A run of `k + 1` steps is a step and a run of `k`. -/
theorem runsTo_succ (k : Nat) (s t : State) : RunsTo (k + 1) s t ↔ ∃ u, step s = .next u ∧ RunsTo k u t :=
  core_run_succ core k s t

/-- What every step keeps, every run keeps. -/
theorem runsTo_induction {P : State → Prop} (hstep : ∀ s t, P s → step s = .next t → P t) :
    ∀ (k : Nat) {s t : State}, P s → RunsTo k s t → P t
  | 0, s, t, hs, h => by
    rw [runsTo_zero] at h
    exact h ▸ hs
  | k + 1, s, t, hs, h => by
    obtain ⟨u, hu, hk⟩ := (runsTo_succ k s t).mp h
    exact runsTo_induction hstep k (hstep s u hs hu) hk

end Sys2Proof.Machine
end

