-- ==== Sys2Proof/Tests/Slice0.lean ====
section
/-! SUPPORT. Tests of one step or one operation each, with the expected results taken from the spec's own worked
examples and vectors (95_test_vectors.md, named at each test), the smoke tests of the well-formedness checks,
and a witness for the hypotheses of every statement that has any. -/

namespace Sys2Proof.Tests

open Sys2Proof.Machine

/-- A running state with nothing on the ports. -/
def mk (pc : Addr) (acc : Word) (ovf : Bool) (cells : List (Nat × Word)) : State :=
  { State.reset with pc := pc, acc := acc, ovf := ovf, mem := cells }

/-- The state after, if there is one. -/
def after (r : Result) : Option State :=
  match r with
  | .next t => some t
  | .fault _ => none
  | .refused _ => none

/-- `ACC`, `OVF` and `PC` after one step. -/
def regs (s : State) : Option (Word × Bool × Addr) := (after (step s)).map fun t => (t.acc, t.ovf, t.pc)

/-! ### Decode (30_encoding.md R52, R57; 95_test_vectors.md S1 and the words of section 2) -/

theorem test_decode_words_of_every_opcode :
    decode 0x0000 = .halt 0 ∧ decode 0x1003 = .load 3 ∧ decode 0x200A = .store 10 ∧ decode 0x3008 = .add 8 ∧
    decode 0x4009 = .sub 9 ∧ decode 0x5000 = .input 0 ∧ decode 0x6000 = .output 0 ∧ decode 0x7002 = .jump 2 ∧
    decode 0x8000 = .skipZero 0 ∧ decode 0x9000 = .skipPos 0 ∧ decode 0xA000 = .skipErr 0 ∧
    decode 0xB014 = .loadi 20 ∧ decode 0xC014 = .storei 20 ∧ decode 0xD01E = .shift 30 ∧
    decode 0xE028 = .and 40 ∧ decode 0xF028 = .xor 40 := by decide

theorem test_decode_ignored_fields :
    decode 0x0ABC = .halt 0xABC ∧ decode 0x5FFF = .input 0xFFF ∧ decode 0x6123 = .output 0x123 ∧
    decode 0x8ABC = .skipZero 0xABC := by decide

theorem test_encode_examples :
    encode (.load 3) = 0x1003 ∧ encode (.xor 4095) = 0xFFFF ∧ encode (.halt 0) = 0x0000 ∧
    encode (.jump 0xABC) = 0x7ABC := by decide

theorem test_decodeTableWord :
    decodeTableWord 16 0xB014 = some (.loadi 20) ∧ decodeTableWord 32 0x1003 = none ∧
    decodeTableWord 0 0 = none := by decide

/-! ### Well-formedness (30_encoding.md R54, R55). The one check that can refuse is `canonical`: each of the
six instructions that ignore the field is refused with a field that is not 0. -/

theorem test_canonical_refuses :
    (Instr.halt 5).canonical = false ∧ (Instr.input 5).canonical = false ∧ (Instr.output 5).canonical = false ∧
    (Instr.skipZero 5).canonical = false ∧ (Instr.skipPos 5).canonical = false ∧
    (Instr.skipErr 5).canonical = false := by decide

theorem test_canonical_accepts :
    (Instr.halt 0).canonical = true ∧ (Instr.load 5).canonical = true ∧ (Instr.halt 5).wellFormed = true := by decide

theorem test_decodeBits_refuses :
    decodeBits 0 0 = .error .empty ∧ decodeBits 17 0 = .error .multiWord := by
  exact ⟨rfl, rfl⟩

/-! ### The ALU function (95_test_vectors.md 2.1) -/

/-- Every V-ADD vector, V-ADD-1 to V-ADD-12. -/
theorem test_alu_add_vectors :
    [(0x7D00#16, 0x03E8#16, 0x80E8#16, true), (0x0064#16, 0x00C8#16, 0x012C#16, false),
     (0x7FFF#16, 0x0001#16, 0x8000#16, true), (0x7FFF#16, 0x0000#16, 0x7FFF#16, false),
     (0xFFFF#16, 0x0001#16, 0x0000#16, false), (0x7FFF#16, 0x7FFF#16, 0xFFFE#16, true),
     (0x8001#16, 0xFFFF#16, 0x8000#16, true), (0x8000#16, 0x0000#16, 0x8000#16, true),
     (0x8001#16, 0x0000#16, 0x8001#16, false), (0x8000#16, 0x8000#16, 0x0000#16, true),
     (0x8000#16, 0x7FFF#16, 0xFFFF#16, false), (0x0000#16, 0xFFFF#16, 0xFFFF#16, false)].all
      (fun v => alu .add v.1 v.2.1 == v.2.2) = true := by decide

/-- Every V-SUB vector, V-SUB-1 to V-SUB-10. -/
theorem test_alu_sub_vectors :
    [(0x0005#16, 0x0007#16, 0xFFFE#16, false), (0x0007#16, 0x0007#16, 0x0000#16, false),
     (0x0000#16, 0x0001#16, 0xFFFF#16, false), (0x0000#16, 0x8000#16, 0x8000#16, true),
     (0x8001#16, 0x0001#16, 0x8000#16, true), (0x8002#16, 0x0001#16, 0x8001#16, false),
     (0x8000#16, 0x8000#16, 0x0000#16, false), (0x8000#16, 0x7FFF#16, 0x0001#16, true),
     (0x7FFF#16, 0xFFFF#16, 0x8000#16, true), (0x7FFF#16, 0x8000#16, 0xFFFF#16, true)].all
      (fun v => alu .sub v.1 v.2.1 == v.2.2) = true := by decide

/-- Every V-SH vector, V-SH-1 to V-SH-19: counts 0, 15, 16, 32767, -15, -16 and -32768 among them. -/
theorem test_alu_shift_vectors :
    [(0x0004#16, 0x0002#16, 0x0010#16), (0x0010#16, 0xFFFE#16, 0x0004#16), (0x1234#16, 0x0000#16, 0x1234#16),
     (0x4000#16, 0x0001#16, 0x8000#16), (0x0001#16, 0x000F#16, 0x8000#16), (0x00FF#16, 0x0008#16, 0xFF00#16),
     (0x0001#16, 0x0010#16, 0x0000#16), (0xFFFF#16, 0x0010#16, 0x0000#16), (0x1234#16, 0x7FFF#16, 0x0000#16),
     (0x0003#16, 0xFFFF#16, 0x0001#16), (0xFFFB#16, 0xFFFF#16, 0xFFFD#16), (0x8000#16, 0xFFFF#16, 0xC000#16),
     (0xFF00#16, 0xFFFC#16, 0xFFF0#16), (0x7FFF#16, 0xFFF1#16, 0x0000#16), (0x8000#16, 0xFFF1#16, 0xFFFF#16),
     (0x7FFF#16, 0xFFF0#16, 0x0000#16), (0x8000#16, 0xFFF0#16, 0xFFFF#16), (0x0001#16, 0x8000#16, 0x0000#16),
     (0xFFFF#16, 0x8000#16, 0xFFFF#16)].all
      (fun v => alu .shift v.1 v.2.1 == (v.2.2, false)) = true := by decide

/-- V-AND-1 to V-AND-4. -/
theorem test_alu_and_vectors :
    [(0x0FF0#16, 0x3C3C#16, 0x0C30#16), (0x1234#16, 0x0000#16, 0x0000#16), (0x1234#16, 0xFFFF#16, 0x1234#16),
     (0xFFFF#16, 0x8000#16, 0x8000#16)].all (fun v => alu .and v.1 v.2.1 == (v.2.2, false)) = true := by decide

/-- V-XOR-1 to V-XOR-5. -/
theorem test_alu_xor_vectors :
    [(0x0FF0#16, 0x3C3C#16, 0x33CC#16), (0x1234#16, 0xFFFF#16, 0xEDCB#16), (0x1234#16, 0x1234#16, 0x0000#16),
     (0x8000#16, 0x8000#16, 0x0000#16), (0x0000#16, 0x0000#16, 0x0000#16)].all
      (fun v => alu .xor v.1 v.2.1 == (v.2.2, false)) = true := by decide

/-! ### The instructions as steps (95_test_vectors.md 2.2 to 2.5) -/

/-- V-ADDI-1 and V-ADDI-4. -/
theorem test_add_steps :
    regs (mk 2 0x7D00 false [(2, 0x3008), (8, 0x03E8)]) = some (0x80E8, true, 3) ∧
    regs (mk 4095 0x0001 false [(8, 0x0001), (4095, 0x3008)]) = some (0x0002, false, 0) := by decide

/-- V-SUBI-1. -/
theorem test_sub_step : regs (mk 2 0x0005 false [(2, 0x4009), (9, 0x0007)]) = some (0xFFFE, false, 3) := by decide

/-- V-SHI-2 and V-SHI-4: the count is the cell, not the field. -/
theorem test_shift_steps :
    regs (mk 0 0x0010 false [(0, 0xD01E), (30, 0xFFFE)]) = some (0x0004, false, 1) ∧
    regs (mk 0 0x0005 false [(0, 0xD002)]) = some (0x0005, false, 1) := by decide

/-- V-ANDI-1: `OVF` is untouched. -/
theorem test_and_step : regs (mk 0 0x0FF0 true [(0, 0xE028), (40, 0x3C3C)]) = some (0x0C30, true, 1) := by decide

/-- V-XORI-1. -/
theorem test_xor_step : regs (mk 0 0x0FF0 false [(0, 0xF028), (40, 0x3C3C)]) = some (0x33CC, false, 1) := by decide

/-- V-LOAD-3 (its own word) and V-LOAD-5. -/
theorem test_load_steps :
    regs (mk 7 0 false [(7, 0x1007)]) = some (0x1007, false, 8) ∧
    regs (mk 0 0 true [(0, 0x1003), (3, 0x8000)]) = some (0x8000, true, 1) := by decide

/-- V-STORE-1 and V-STORE-3 (the instruction overwrites itself). -/
theorem test_store_steps :
    (after (step (mk 9 0x002A false [(9, 0x200A)]))).map (·.mem) = some [(9, 0x200A), (10, 0x002A)] ∧
    (after (step (mk 4 0x6000 false [(4, 0x2004)]))).map (·.mem) = some [(4, 0x6000)] := by decide

/-- V-LOADI-2 and V-LOADI-3: the last pointer in range and the first out of range. -/
theorem test_loadi_at_the_edge :
    regs (mk 4 0 false [(4, 0xB014), (20, 0x0FFF), (4095, 0xABCD)]) = some (0xABCD, false, 5) ∧
    regs (mk 4 0x7777 false [(4, 0xB014), (20, 0x1000)]) = some (0x0000, false, 5) := by decide

/-- V-LOADI-4 and V-LOADI-6: pointers 65535 and 5000 are neither masked nor read as negative. -/
theorem test_loadi_far_out_of_range :
    regs (mk 4 0x7777 false [(4, 0xB014), (20, 0xFFFF), (4095, 0xABCD)]) = some (0x0000, false, 5) ∧
    regs (mk 4 0x7777 false [(4, 0xB014), (20, 0x1388), (904, 0x5555)]) = some (0x0000, false, 5) := by decide

/-- V-STOREI-2 and V-STOREI-5 (the pointer cell is its own target). -/
theorem test_storei_in_range :
    (after (step (mk 4 0x1234 false [(4, 0xC014), (20, 0x0FFF)]))).map (·.mem) =
      some [(4, 0xC014), (20, 0x0FFF), (4095, 0x1234)] ∧
    (after (step (mk 4 0x1234 false [(4, 0xC014), (20, 0x0014)]))).map (·.mem) =
      some [(4, 0xC014), (20, 0x1234)] := by decide

/-- V-STOREI-3: no cell changes, and the step completes. -/
theorem test_storei_out_of_range :
    after (step (mk 4 0x1234 false [(0, 0x1111), (4, 0xC014), (20, 0x1000)])) =
      some (mk 5 0x1234 false [(0, 0x1111), (4, 0xC014), (20, 0x1000)]) := by decide

/-- V-JUMP-2 and V-JUMP-3. -/
theorem test_jump_steps :
    regs (mk 5 0 false [(5, 0x7005)]) = some (0, false, 5) ∧
    regs (mk 0 0 false [(0, 0x7FFF)]) = some (0, false, 4095) := by decide

/-- V-SKZ-3, V-SKZ-5, V-SKZ-6 and V-SKZ-7. -/
theorem test_skipZero_steps :
    regs (mk 3 0x8000 false [(3, 0x8000)]) = some (0x8000, false, 4) ∧
    regs (mk 4095 0 false [(4095, 0x8000)]) = some (0, false, 1) ∧
    regs (mk 4095 5 false [(4095, 0x8000)]) = some (5, false, 0) ∧
    regs (mk 3 0 false [(3, 0x8ABC)]) = some (0, false, 5) := by decide

/-- V-SKP-3, V-SKP-4, V-SKP-5 and V-SKP-7. -/
theorem test_skipPos_steps :
    regs (mk 6 0x0000 false [(6, 0x9000)]) = some (0x0000, false, 7) ∧
    regs (mk 6 0x7FFF false [(6, 0x9000)]) = some (0x7FFF, false, 8) ∧
    regs (mk 6 0x8000 false [(6, 0x9000)]) = some (0x8000, false, 7) ∧
    regs (mk 6 0x0001 false [(6, 0x9000)]) = some (0x0001, false, 8) := by decide

/-- V-SKE-1 to V-SKE-3. -/
theorem test_skipErr_steps :
    regs (mk 10 0 true [(10, 0xA000)]) = some (0, true, 12) ∧
    regs (mk 10 0 false [(10, 0xA000)]) = some (0, false, 11) ∧
    regs (mk 4095 0 true [(4095, 0xA000)]) = some (0, true, 1) := by decide

/-- V-HALT-2: `RUN` is cleared and nothing else changes. -/
theorem test_halt_step :
    after (step (mk 3 0x000C true [(3, 0x0ABC)])) =
      some { mk 3 0x000C true [(3, 0x0ABC)] with run := false } := by decide

/-- V-HALT-4: a halted machine does not move, whatever stands at `PC`. -/
theorem test_halted_machine_stays :
    after (step { mk 0 1 false [(0, 0x6000)] with run := false }) =
      some { mk 0 1 false [(0, 0x6000)] with run := false } := by decide

/-- V-OUT-3: one item at the end of the trace. -/
theorem test_output_step :
    (after (step { mk 2 0x8000 false [(2, 0x6123)] with output := [7] })).map (fun t => (t.output, t.pc, t.acc)) =
      some ([7, 0x8000], 3, 0x8000) := by decide

/-- V-IN-2. -/
theorem test_input_step :
    (after (step { mk 0 9 true [(0, 0x5000)] with input := [0xFFFE, 5] })).map
      (fun t => (t.acc, t.ovf, t.pc, t.input, t.consumed)) = some (0xFFFE, true, 1, [5], 1) := by decide

/-- V-IN-3: no word, no change. -/
theorem test_input_waits :
    after (step (mk 0 9 false [(0, 0x5000)])) = some (mk 0 9 false [(0, 0x5000)]) := by decide

/-! ### Launch and the host's port (95_test_vectors.md 2.6) -/

/-- V-RST-1: the empty image halts at its first step. -/
theorem test_launch_empty :
    after (step (launch [] [])) = some { State.reset with run := false } := by decide

/-- V-RST-2; a zero word of the image is not listed, because it reads the same unlisted. -/
theorem test_launch_image :
    (launch [0x1003, 0x3004] []).mem = [(0, 0x1003), (1, 0x3004)] ∧
    (launch [0x1003, 0, 0x3004] []).mem = [(0, 0x1003), (2, 0x3004)] := by decide

/-- V-RST-3's point, at the top of memory: the word after address 4095 is dropped and wraps nowhere. -/
theorem test_load_drops_words_beyond_memory : loadFrom [] 4095 [0x0001, 0xFFFF] = [(4095, 0x0001)] := by decide

/-- The placed word is fetched and run next. -/
theorem test_withFetchWord :
    (after (step (State.reset.withFetchWord 16 0x7ABC))).map (·.pc) = some 0xABC := by decide

end Sys2Proof.Tests
end

