-- ==== Sys2Proof/Tests/Witnesses.lean ====
section
/-! SUPPORT. For every statement that has hypotheses, a concrete state and operands that meet all of them
together; where a statement has several clauses, a value at the boundary of each. -/

namespace Sys2Proof.Tests

open Sys2Proof.Machine

/-! ### Encoding -/

theorem witness_OnlyLengthIsEverRejected :
    (1 ≤ 16 ∧ 16 ≤ 16 ∧ decodeBits 16 0xFFFF = .ok (.xor 0xFFF)) ∧
    (1 ≤ 1 ∧ 1 ≤ 16 ∧ decodeBits 1 1 = .ok (.halt 1)) ∧
    (16 < 17 ∧ decodeBits 17 0 = .error .multiWord) ∧ decodeBits 0 0 = .error .empty :=
  ⟨⟨by decide, by decide, rfl⟩, ⟨by decide, by decide, rfl⟩, ⟨by decide, rfl⟩, rfl⟩

theorem witness_IgnoredAddressFieldHasNoEffect :
    (0xAFFF#16).toNat / 4096 = (0xA000#16).toNat / 4096 ∧ (decode 0xAFFF).usesAddress = false := by decide

theorem witness_SmallWordsHaltWhenExecuted :
    (mk 4095 0 false [(4095, 0x0FFF)]).run = true ∧
    (memRead (mk 4095 0 false [(4095, 0x0FFF)]).mem (zext16 4095#12)).toNat < 4096 := by decide

/-! ### The step -/

/-- A running machine at `STORE 3` in cell 2, with 0x6000 in the accumulator: the next instruction is what it
stores. -/
def atStore : State := mk 2 0x6000 false [(2, 0x2003)]

/-- The state after it. -/
def afterStore : State := mk 3 0x6000 false [(2, 0x2003), (3, 0x6000)]

theorem witness_StepRunsTheFetchedInstruction :
    atStore.run = true ∧ (Instr.store 3).wellFormed = true ∧
    decode (memRead atStore.mem (zext16 atStore.pc)) = .store 3 ∧ step atStore = .next afterStore := by
  exact ⟨rfl, rfl, by decide, rfl⟩

theorem witness_PlacedWordIsRunNext : MemoryCanonical atStore := by decide

theorem witness_HaltedStateIsFinal : Halted { atStore with run := false } := by decide

/-- A machine at an INPUT in the last cell, with nothing to read. -/
def waitingState : State := mk 4095 9 false [(4095, 0x5FFF)]

theorem witness_WaitingEndsWhenAWordArrives : Waiting waitingState :=
  ⟨rfl, ⟨0xFFF, by decide⟩, rfl⟩

theorem witness_ArrivingInputDisturbsNothing : ¬ Waiting atStore ∧ step atStore = .next afterStore := by
  refine ⟨?_, rfl⟩
  rintro ⟨_, ⟨a, h⟩, _⟩
  exact absurd h (by rw [show decode (fetch atStore) = .store 3 by decide]; simp)

/-- A halted machine, a waiting one, a JUMP to itself at the top of memory, and a machine that moves on. -/
theorem witness_OnlyIdlingAndSelfJumpsRepeatTheState :
    Halted { atStore with run := false } ∧ Waiting waitingState ∧
    decode (fetch (mk 4095 0 false [(4095, 0x7FFF)])) = .jump (mk 4095 0 false [(4095, 0x7FFF)]).pc ∧
    Enabled atStore :=
  ⟨rfl, witness_WaitingEndsWhenAWordArrives, by decide, rfl, witness_ArrivingInputDisturbsNothing.1⟩

/-! ### Data movement and the ports -/

theorem witness_StoreWritesTheNamedCellOnly : MemoryCanonical atStore := by decide

/-- Pointer cells at the edge of memory: cell 20 holds 4095, cell 21 holds 4096. -/
def pointers : State := mk 4 0x1234 false [(20, 0x0FFF), (21, 0x1000)]

theorem witness_LoadiDereferencesThePointerOnce :
    (memRead pointers.mem (zext16 20#12)).toNat = 4095 ∧ (memRead pointers.mem (zext16 21#12)).toNat = 4096 := by
  decide

theorem witness_StoreiWritesThroughThePointer :
    MemoryCanonical pointers ∧ (memRead pointers.mem (zext16 20#12)).toNat < 4096 ∧
    4096 ≤ (memRead pointers.mem (zext16 21#12)).toNat := by decide

theorem witness_InputTakesTheNextWord :
    { waitingState with input := [0x8000, 1] }.input = 0x8000#16 :: [1#16] := rfl

theorem witness_InputWithoutAWordChangesNothing : waitingState.input = [] := rfl

/-! ### The ALU -/

/-- The largest and smallest true sums that fit, and their neighbours that do not. -/
theorem witness_AluSumWrapsModulo65536 :
    (0x7FFF#16).toInt + (0x0000#16).toInt = 32767 ∧ (0x7FFF#16).toInt + (0x0001#16).toInt = 32768 ∧
    (0x8001#16).toInt + (0xFFFF#16).toInt = -32768 ∧ (0x8000#16).toInt + (0xFFFF#16).toInt = -32769 := by decide

theorem witness_AluDifferenceWrapsModulo65536 :
    (0x7FFF#16).toInt - (0x0000#16).toInt = 32767 ∧ (0x7FFF#16).toInt - (0xFFFF#16).toInt = 32768 ∧
    (0x8001#16).toInt - (0x0001#16).toInt = -32768 ∧ (0x8000#16).toInt - (0x0001#16).toInt = -32769 := by decide

/-- Both operations, at -32767 and -32768: the one value at which the two readings of conflict C1 differ. -/
theorem witness_OverflowIsTheSymmetricInterval :
    (-32767 : Int) = (0x8001#16).toInt + (0x0000#16).toInt ∧ (-32768 : Int) = (0x8000#16).toInt + (0x0000#16).toInt ∧
    (-32767 : Int) = (0x8002#16).toInt - (0x0001#16).toInt ∧ (-32768 : Int) = (0x8001#16).toInt - (0x0001#16).toInt ∧
    (alu .add 0x8001 0x0000).2 = false ∧ (alu .add 0x8000 0x0000).2 = true := by decide

/-- Counts 0, 15, 16 and 32767. -/
theorem witness_ShiftLeftMultipliesByAPowerOfTwo :
    (0x0000#16).toInt.toNat = 0 ∧ (0x000F#16).toInt.toNat = 15 ∧ (0x0010#16).toInt.toNat = 16 ∧
    0 ≤ (0x7FFF#16).toInt := by decide

/-- Counts -1, -15, -16 and -32768. -/
theorem witness_ShiftRightDividesByAPowerOfTwo :
    (0xFFFF#16).toInt < 0 ∧ (-(0xFFF1#16).toInt).toNat = 15 ∧ (-(0xFFF0#16).toInt).toNat = 16 ∧
    (-(0x8000#16).toInt).toNat = 32768 := by decide

/-- An ADD and a SUB at the edge of each clause: 32767 and 32768, -32767, -32768 and -32769. -/
theorem witness_AddAndSubAreExactUntilTheyOverflow :
    (let s := mk 0 0x7FFF false [(8, 0x0001)]
     (32767 : Int) = s.acc.toInt + (memRead s.mem (zext16 9#12)).toInt ∧
     (32768 : Int) = s.acc.toInt + (memRead s.mem (zext16 8#12)).toInt) ∧
    (let s := mk 0 0x8001 false [(8, 0x0001), (9, 0x0002)]
     (-32767 : Int) = s.acc.toInt - (memRead s.mem (zext16 7#12)).toInt ∧
     (-32768 : Int) = s.acc.toInt - (memRead s.mem (zext16 8#12)).toInt ∧
     (-32769 : Int) = s.acc.toInt - (memRead s.mem (zext16 9#12)).toInt) := by decide

/-! ### Memory -/

/-- The last address in range, the first out of range and the last of all. -/
theorem witness_ReadsOutOfRangeReturnZero :
    (0x0FFF#16).toNat < 4096 ∧ 4096 ≤ (0x1000#16).toNat ∧ 4096 ≤ (0xFFFF#16).toNat := by decide

theorem witness_WritesSetOneCellOrNothing :
    Memory.wf [(4095, 0x1111#16)] = true ∧
    memRead (memWrite [(4095, 0x1111#16)] 0x0FFF 5) 0x0FFF = 5 ∧
    memWrite [(4095, 0x1111#16)] 0x1000 5 = [(4095, 0x1111#16)] := by decide

theorem witness_SourceBoundsCheckVectors : Memory.wf [(904, 0x5555#16)] = true := by decide

theorem witness_CanonicalMemoriesReadingAlikeAreEqual :
    Memory.wf (memWrite [] 3#16 5#16) = true ∧ Memory.wf [(3, 5#16)] = true ∧
    ∀ a : Addr, memRead (memWrite [] 3#16 5#16) (zext16 a) = memRead [(3, 5#16)] (zext16 a) :=
  ⟨by decide, by decide, fun _ => rfl⟩

theorem witness_MemoryChangesOnlyAtTheStoreAddress :
    MemoryCanonical atStore ∧ exec (.store 3) atStore = .next afterStore ∧
    storeAddress (.store 3) atStore = some 3#16 ∧ (3#16).toNat < 4096 ∧
    exec (.storei 21) pointers = .next { pointers with pc := 5 } ∧
    storeAddress (.storei 21) pointers = some 0x1000#16 := by
  exact ⟨by decide, rfl, by decide, by decide, rfl, by decide⟩

theorem witness_StoredWordIsExecutedNext :
    MemoryCanonical atStore ∧ exec (.store 3) atStore = .next afterStore ∧ afterStore.run = true ∧
    storeAddress (.store 3) atStore = some (zext16 afterStore.pc) := by
  exact ⟨by decide, rfl, rfl, by decide⟩

/-! ### Whole-machine rules -/

/-- 32767 + 1 and 0 - (-32768) overflow, and JUMP runs with the flag set. -/
theorem witness_OverflowFlagIsStickyAndReadBySkipErrOnly :
    (∃ t, exec (.add 8) (mk 0 0x7FFF false [(8, 1)]) = .next t ∧ t.ovf = true) ∧
    (∃ t, exec (.sub 8) (mk 0 0 false [(8, 0x8000)]) = .next t ∧ t.ovf = true) ∧
    exec (.jump 5) (mk 0 0 true []) = .next (mk 5 0 true []) ∧ (∀ a, Instr.jump 5 ≠ .skipErr a) := by
  exact ⟨⟨_, rfl, by decide⟩, ⟨_, rfl, by decide⟩, rfl, by simp⟩

theorem witness_OnlyEightInstructionsWriteTheAccumulator :
    exec (.jump 5) (mk 0 7 false []) = .next (mk 5 7 false []) ∧ (∀ a, Instr.jump 5 ≠ .load a) ∧
    (∀ a, Instr.jump 5 ≠ .loadi a) ∧ (∀ a, Instr.jump 5 ≠ .input a) ∧ (∀ a, Instr.jump 5 ≠ .add a) ∧
    (∀ a, Instr.jump 5 ≠ .sub a) ∧ (∀ a, Instr.jump 5 ≠ .shift a) ∧ (∀ a, Instr.jump 5 ≠ .and a) ∧
    (∀ a, Instr.jump 5 ≠ .xor a) := by
  refine ⟨rfl, ?_⟩
  simp

theorem witness_SixInstructionsDoNotReadTheAccumulator :
    exec (.load 3) (mk 0 7 false [(3, 5)]) = .next (mk 1 5 false [(3, 5)]) ∧
    exec (.load 3) (mk 0 8 false [(3, 5)]) = .next (mk 1 5 false [(3, 5)]) ∧
    exec (.input 0) waitingState = .next waitingState := ⟨rfl, rfl, rfl⟩

theorem witness_NoInstructionReadsThePc :
    exec (.store 3) atStore = .next afterStore ∧
    exec (.store 3) { atStore with pc := 4095 } = .next { afterStore with pc := 0 } := ⟨rfl, rfl⟩

/-- The table at the top of memory: one on from 4095 is 0, two on is 1. -/
theorem witness_PcMovesByTheUpdateTable :
    exec (.store 3) { atStore with pc := 4095 } = .next { afterStore with pc := 0 } ∧
    exec (.skipZero 0) (mk 4095 0 false []) = .next (mk 1 0 false []) ∧
    exec (.skipZero 0) (mk 4095 1 false []) = .next (mk 0 1 false []) ∧
    exec (.input 0) waitingState = .next waitingState := ⟨rfl, rfl, rfl, rfl⟩

theorem witness_OnlyHaltChangesTheRunFlag :
    exec (.halt 0) atStore = .next { atStore with run := false } ∧ exec (.store 3) atStore = .next afterStore :=
  ⟨rfl, rfl⟩

theorem witness_OnlyOutputExtendsTheTrace :
    step (mk 3 5 false [(3, 0x6000)]) = .next { mk 4 5 false [(3, 0x6000)] with output := [5] } ∧
    decode (fetch (mk 3 5 false [(3, 0x6000)])) = .output 0 ∧ step atStore = .next afterStore ∧
    decode (fetch atStore) = .store 3 := by
  exact ⟨rfl, by decide, rfl, by decide⟩

theorem witness_OnlyInputConsumesAWord :
    step { waitingState with input := [7] } =
      .next { waitingState with acc := 7, pc := 0, input := [], consumed := 1 } ∧
    decode (fetch waitingState) = .input 0xFFF ∧ step waitingState = .next waitingState ∧
    step atStore = .next afterStore ∧ decode (fetch atStore) = .store 3 := by
  exact ⟨rfl, by decide, rfl, rfl, by decide⟩

/-! ### Invariants and runs -/

theorem witness_EveryStepKeepsMemoryCanonical : MemoryCanonical atStore ∧ step atStore = .next afterStore :=
  ⟨by decide, rfl⟩

theorem witness_HaltedMachineStandsAtAHalt :
    step State.reset = .next { State.reset with run := false } ∧ Halted { State.reset with run := false } ∧
    RunsTo 1 (launch [] []) { State.reset with run := false } ∧
    decode (fetch { State.reset with run := false }) = .halt 0 :=
  ⟨rfl, rfl, rfl, by decide⟩

theorem witness_RunsOnlyExtendTheirHistory : RunsTo 1 atStore afterStore := rfl

theorem witness_UnaskedInputLeavesTheRunAlone :
    (∀ j u, j < 1 → RunsTo j atStore u → ¬ Waiting u) ∧ RunsTo 1 atStore afterStore := by
  refine ⟨?_, rfl⟩
  intro j u hj hu
  obtain rfl : j = 0 := by omega
  rw [runsTo_zero] at hu
  exact hu ▸ witness_ArrivingInputDisturbsNothing.1

theorem witness_ReadBackAfterHaltOnly :
    atStore.run = true ∧ readBack atStore = none ∧ Halted { atStore with run := false } := by decide

end Sys2Proof.Tests
end

/-! SUPPORT. The state every instruction answers with, as a function: `exec` never faults and is never refused, so a
statement about `exec i s = .next t` is one about `nextState i s`. Then, field by field, what an instruction writes
and what it reads. -/

namespace Sys2Proof.Machine

/-- The state after an INPUT: the first word consumed into `ACC`, or the same state when there is none
(44_system_io.md R123, R124). -/
def inputState (s : State) : State :=
  match s.input with
  | [] => s
  | w :: rest => ({ s with input := rest, consumed := s.consumed + 1 }.setAcc w).advance 1

/-- The state after an instruction, one row per instruction; `exec_eq_nextState` ties it to `exec`. -/
def nextState (i : Instr) (s : State) : State :=
  match i with
  | .halt _ => s.clearRun
  | .load a => (s.setAcc (directOperand a s)).advance 1
  | .store a => (s.write (zext16 a) s.acc).advance 1
  | .add a => ((s.setAcc (alu .add s.acc (directOperand a s)).1).orOvf (alu .add s.acc (directOperand a s)).2).advance 1
  | .sub a => ((s.setAcc (alu .sub s.acc (directOperand a s)).1).orOvf (alu .sub s.acc (directOperand a s)).2).advance 1
  | .input _ => inputState s
  | .output _ => (s.emit s.acc).advance 1
  | .jump a => s.setPc a
  | .skipZero _ => s.advance (if accIsZero s.acc then 2 else 1)
  | .skipPos _ => s.advance (if accIsPositive s.acc then 2 else 1)
  | .skipErr _ => s.advance (if s.ovf then 2 else 1)
  | .loadi a => (s.setAcc (indirectOperand a s)).advance 1
  | .storei a => (s.write (pointer a s) s.acc).advance 1
  | .shift a => (s.setAcc (alu .shift s.acc (directOperand a s)).1).advance 1
  | .and a => (s.setAcc (alu .and s.acc (directOperand a s)).1).advance 1
  | .xor a => (s.setAcc (alu .xor s.acc (directOperand a s)).1).advance 1

theorem inputState_nil {s : State} (h : s.input = []) : inputState s = s := by
  simp [inputState, h]

theorem inputState_cons {s : State} {w : Word} {rest : List Word} (h : s.input = w :: rest) :
    inputState s = ({ s with input := rest, consumed := s.consumed + 1 }.setAcc w).advance 1 := by
  simp [inputState, h]

theorem exec_eq_nextState (i : Instr) (s : State) : exec i s = .next (nextState i s) := by
  cases i with
  | input a =>
    cases h : s.input with
    | nil => rw [exec_input_nil a h, nextState, inputState_nil h]
    | cons w rest => rw [exec_input_cons a h, nextState, inputState_cons h]
  | _ => rfl

theorem exec_eq_next_iff {i : Instr} {s t : State} : exec i s = .next t ↔ nextState i s = t := by
  rw [exec_eq_nextState, Host.Outcome.next.injEq]

/-! ### What INPUT leaves unchanged -/

@[simp] theorem inputState_ovf (s : State) : (inputState s).ovf = s.ovf := by
  cases h : s.input with
  | nil => rw [inputState_nil h]
  | cons w rest => simp [inputState_cons h]

@[simp] theorem inputState_run (s : State) : (inputState s).run = s.run := by
  cases h : s.input with
  | nil => rw [inputState_nil h]
  | cons w rest => simp [inputState_cons h]

/-! ### INPUT reads no register (10_state.md R11, R13, R15) -/

theorem inputState_with_ovf (s : State) (flag : Bool) :
    { inputState { s with ovf := flag } with ovf := (inputState s).ovf } = inputState s := by
  obtain ⟨_, _, _, _, _, input, _, _⟩ := s
  cases input <;> rfl

theorem inputState_with_pc (s : State) (p : Addr) :
    { inputState { s with pc := p } with pc := (inputState s).pc } = inputState s := by
  obtain ⟨_, _, _, _, _, input, _, _⟩ := s
  cases input <;> rfl

theorem inputState_with_acc (s : State) (v : Word) :
    { inputState { s with acc := v } with acc := (inputState s).acc } = inputState s := by
  obtain ⟨_, _, _, _, _, input, _, _⟩ := s
  cases input <;> rfl

/-! ### `OVF` (10_state.md R15) -/

theorem nextState_ovf_of_ne_add_sub {i : Instr} (s : State) (hadd : ∀ a, i ≠ .add a) (hsub : ∀ a, i ≠ .sub a) :
    (nextState i s).ovf = s.ovf := by
  cases i with
  | add a => exact absurd rfl (hadd a)
  | sub a => exact absurd rfl (hsub a)
  | input a => exact inputState_ovf s
  | _ => rfl

theorem nextState_ovf_of_ovf (i : Instr) {s : State} (h : s.ovf = true) : (nextState i s).ovf = true := by
  cases i with
  | add a => simp [nextState, h]
  | sub a => simp [nextState, h]
  | _ => rw [nextState_ovf_of_ne_add_sub s (by simp) (by simp), h]

/-- SKIPERR alone reads `OVF`: any other instruction does the same to everything else whatever the flag is. -/
theorem nextState_with_ovf {i : Instr} (s : State) (flag : Bool) (hskip : ∀ a, i ≠ .skipErr a) :
    { nextState i { s with ovf := flag } with ovf := (nextState i s).ovf } = nextState i s := by
  cases i with
  | skipErr a => exact absurd rfl (hskip a)
  | input a => exact inputState_with_ovf s flag
  | _ => rfl

/-! ### `PC` (10_state.md R13, R14) -/

/-- The program counter as a number after a skip. -/
theorem toNat_pc_skip (c : Bool) (p : Addr) : (p + BitVec.ofNat 12 (if c then 2 else 1)).toNat =
    if c then (p.toNat + 2) % 4096 else (p.toNat + 1) % 4096 := by
  cases c with
  | false => exact toNat_pc_add_one p
  | true => exact toNat_pc_add_two p

theorem toNat_inputState_pc (s : State) :
    (inputState s).pc.toNat = if s.input = [] then s.pc.toNat else (s.pc.toNat + 1) % 4096 := by
  cases h : s.input with
  | nil => simp [inputState_nil h]
  | cons w rest =>
    rw [inputState_cons h, if_neg (List.cons_ne_nil w rest)]
    exact toNat_pc_add_one s.pc

theorem nextState_with_pc (i : Instr) (s : State) (p : Addr) :
    { nextState i { s with pc := p } with pc := (nextState i s).pc } = nextState i s := by
  cases i with
  | input a => exact inputState_with_pc s p
  | _ => rfl

/-! ### `RUN` (10_state.md R17) -/

theorem nextState_run_of_ne_halt {i : Instr} (s : State) (hhalt : ∀ a, i ≠ .halt a) :
    (nextState i s).run = s.run := by
  cases i with
  | halt a => exact absurd rfl (hhalt a)
  | input a => exact inputState_run s
  | _ => rfl

end Sys2Proof.Machine

/-! PROOFS. What the instructions do to `OVF`, `ACC`, `PC` and `RUN` (10_state.md R11 to R17). -/

namespace Sys2Proof.Machine

/-- Settles O42: only ADD and SUB write the flag, and only SKIPERR's next state depends on it. -/
theorem overflowFlagIsStickyAndReadBySkipErrOnly : Obligations.OverflowFlagIsStickyAndReadBySkipErrOnly := by
  unfold Obligations.OverflowFlagIsStickyAndReadBySkipErrOnly
  refine ⟨?add, ?sub, ?others, ?sticky, ?alu, ?unread, rfl, fun _ _ => rfl⟩
  case add =>
    intro a s t h
    obtain rfl := exec_eq_next_iff.mp h
    rfl
  case sub =>
    intro a s t h
    obtain rfl := exec_eq_next_iff.mp h
    rfl
  case others =>
    intro i s t hadd hsub h
    obtain rfl := exec_eq_next_iff.mp h
    exact nextState_ovf_of_ne_add_sub s hadd hsub
  case sticky =>
    intro i s t h hovf
    obtain rfl := exec_eq_next_iff.mp h
    exact nextState_ovf_of_ovf i hovf
  case alu => exact fun _ _ => ⟨rfl, rfl, rfl⟩
  case unread =>
    intro i s t flag hskip h
    obtain rfl := exec_eq_next_iff.mp h
    exact ⟨_, exec_eq_nextState i _, nextState_with_ovf s flag hskip⟩

/-- Settles O43, by the instruction: past the eight excluded ones every update leaves `ACC`. -/
theorem onlyEightInstructionsWriteTheAccumulator : Obligations.OnlyEightInstructionsWriteTheAccumulator := by
  unfold Obligations.OnlyEightInstructionsWriteTheAccumulator
  intro i s t h hload hloadi hinput hadd hsub hshift hand hxor
  obtain rfl := exec_eq_next_iff.mp h
  cases i with
  | load a => exact absurd rfl (hload a)
  | loadi a => exact absurd rfl (hloadi a)
  | input a => exact absurd rfl (hinput a)
  | add a => exact absurd rfl (hadd a)
  | sub a => exact absurd rfl (hsub a)
  | shift a => exact absurd rfl (hshift a)
  | and a => exact absurd rfl (hand a)
  | xor a => exact absurd rfl (hxor a)
  | _ => rfl

/-- Settles O44: the next states of the six differ at most in `ACC`, and LOAD and LOADI overwrite it. -/
theorem sixInstructionsDoNotReadTheAccumulator : Obligations.SixInstructionsDoNotReadTheAccumulator := by
  unfold Obligations.SixInstructionsDoNotReadTheAccumulator
  intro i a s t v hi h
  obtain rfl := exec_eq_next_iff.mp h
  refine ⟨_, exec_eq_nextState i _, ?_⟩
  obtain rfl | rfl | rfl | rfl | rfl | rfl := hi
  · exact ⟨rfl, by simp⟩
  · exact ⟨rfl, by simp⟩
  · exact ⟨rfl, by simp⟩
  · exact ⟨rfl, fun _ => rfl⟩
  · exact ⟨rfl, fun _ => rfl⟩
  · exact ⟨inputState_with_acc s v, by simp⟩

/-- Settles O45: next states from two values of `PC` agree in everything but `PC`. -/
theorem noInstructionReadsThePc : Obligations.NoInstructionReadsThePc := by
  unfold Obligations.NoInstructionReadsThePc
  intro i s t p h
  obtain rfl := exec_eq_next_iff.mp h
  exact ⟨_, exec_eq_nextState i _, nextState_with_pc i s p⟩

/-- Settles O46, row by row of the table: the skips by their condition, INPUT by its stream, the rest one on. -/
theorem pcMovesByTheUpdateTable : Obligations.PcMovesByTheUpdateTable := by
  unfold Obligations.PcMovesByTheUpdateTable
  intro i s t h
  obtain rfl := exec_eq_next_iff.mp h
  cases i with
  | halt a => rfl
  | jump a => rfl
  | skipZero a =>
    simpa only [nextState, State.advance_pc, accIsZero_iff] using toNat_pc_skip (accIsZero s.acc) s.pc
  | skipPos a =>
    simpa only [nextState, State.advance_pc, accIsPositive_iff] using toNat_pc_skip (accIsPositive s.acc) s.pc
  | skipErr a => exact toNat_pc_skip s.ovf s.pc
  | input a => exact toNat_inputState_pc s
  | _ => exact toNat_pc_add_one s.pc

/-- Settles O47: HALT's update is `clearRun`, and no other instruction's touches `RUN`. -/
theorem onlyHaltChangesTheRunFlag : Obligations.OnlyHaltChangesTheRunFlag := by
  unfold Obligations.OnlyHaltChangesTheRunFlag
  intro i s t h
  obtain rfl := exec_eq_next_iff.mp h
  refine ⟨?_, nextState_run_of_ne_halt s⟩
  rintro ⟨a, rfl⟩
  rfl

end Sys2Proof.Machine

/-! PROOFS. The representation of memory (10_state.md R19), the reset and launch states (R25) and the host's
read-back (R23). -/

namespace Sys2Proof.Machine

namespace Memory

theorem cell_head (k : Nat) (v : Word) (m : Memory) : Memory.cell ((k, v) :: m) k = v := by
  simp [Memory.cell]

theorem cell_tail {k i : Nat} (h : k < i) (v : Word) (m : Memory) :
    Memory.cell ((k, v) :: m) i = Memory.cell m i := by
  simp [Memory.cell, show ¬ i < k by omega, show i ≠ k by omega]

/-- A first listed address reads differently in a memory that lists only later ones. -/
theorem cell_head_ne {k : Nat} {v : Word} (hv : v ≠ Memory.unlisted) (m : Memory) {n : Memory}
    (hn : Memory.wfFrom (k + 1) n = true) : Memory.cell ((k, v) :: m) k ≠ Memory.cell n k := by
  rwa [cell_head, cell_below hn (Nat.lt_succ_self k)]

/-- Memories canonical from one address up are equal when they read alike: their first entries must be the same,
and below the next address the remainders both read as unlisted. -/
theorem wfFrom_ext : ∀ {lo : Nat} {m n : Memory}, Memory.wfFrom lo m = true → Memory.wfFrom lo n = true →
    (∀ i < Config.memorySize, Memory.cell m i = Memory.cell n i) → m = n
  | _, [], [], _, _, _ => rfl
  | _, [], (l, w) :: n, _, hn, h => by
    obtain ⟨-, hl, hw, -⟩ := (wfFrom_cons ..).mp hn
    exact absurd (h l hl).symm (cell_head_ne hw n rfl)
  | _, (k, v) :: m, [], hm, _, h => by
    obtain ⟨-, hk, hv, -⟩ := (wfFrom_cons ..).mp hm
    exact absurd (h k hk) (cell_head_ne hv m rfl)
  | _, (k, v) :: m, (l, w) :: n, hm, hn, h => by
    obtain ⟨-, hk, hv, hm'⟩ := (wfFrom_cons ..).mp hm
    obtain ⟨-, hl, hw, hn'⟩ := (wfFrom_cons ..).mp hn
    obtain hkl | rfl | hlk := Nat.lt_trichotomy k l
    · exact absurd (h k hk) (cell_head_ne hv m ((wfFrom_cons ..).mpr ⟨hkl, hl, hw, hn'⟩))
    · have hvw : v = w := by simpa only [cell_head] using h k hk
      have hrest : ∀ i < Config.memorySize, Memory.cell m i = Memory.cell n i := by
        intro i hi
        by_cases hki : k < i
        · simpa only [cell_tail hki] using h i hi
        · rw [cell_below hm' (by omega), cell_below hn' (by omega)]
      rw [hvw, wfFrom_ext hm' hn' hrest]
    · exact absurd (h l hl).symm (cell_head_ne hw n ((wfFrom_cons ..).mpr ⟨hlk, hk, hv, hm'⟩))

end Memory

@[simp] theorem memRead_nil (x : Word) : memRead [] x = 0#16 := ite_self _

/-- The empty memory holds a HALT at the entry point (30_encoding.md R56). -/
theorem step_reset : step State.reset = .next { State.reset with run := false } := by
  have hfetch : decode (fetch State.reset) = .halt 0#12 := by decide
  rw [step_running rfl, hfetch, exec_halt]
  rfl

theorem readBack_running {s : State} (h : s.run = true) : readBack s = none := by
  simp [readBack, haltedStatus, h]

theorem readBack_halted {s : State} (h : Halted s) : readBack s = some
    { output := s.output, acc := s.acc, pc := s.pc, ovf := s.ovf, mem := s.mem, consumed := s.consumed } := by
  simp [readBack, haltedStatus, h]

/-- Settles O39: canonical memories are extensional in their cells, each of which a direct address reads. -/
theorem canonicalMemoriesReadingAlikeAreEqual : Obligations.CanonicalMemoriesReadingAlikeAreEqual := by
  unfold Obligations.CanonicalMemoriesReadingAlikeAreEqual
  intro m n hm hn h
  refine Memory.wfFrom_ext hm hn fun i hi => ?_
  have hi' : i < 2 ^ 12 := hi
  simpa only [memRead_zext16, BitVec.toNat_ofNatLT] using h (BitVec.ofNatLT i hi')

/-- Settles O51: the empty image lists no cell, and an unlisted cell is a HALT. -/
theorem resetIsTheEmptyLaunch : Obligations.ResetIsTheEmptyLaunch := by
  unfold Obligations.ResetIsTheEmptyLaunch
  exact ⟨rfl, rfl, rfl, rfl, rfl, memRead_nil, step_reset⟩

/-- Settles O52: the host load starts from the empty memory and keeps the canonical form. -/
theorem launchMemoryIsCanonical : Obligations.LaunchMemoryIsCanonical := by
  unfold Obligations.LaunchMemoryIsCanonical
  exact ⟨wf_reset, fun image _ => wf_loadFrom image 0 Memory.wf_nil⟩

/-- Settles O57, by the value of `RUN`, which the halted status inverts. -/
theorem readBackAfterHaltOnly : Obligations.ReadBackAfterHaltOnly := by
  unfold Obligations.ReadBackAfterHaltOnly
  intro s
  refine ⟨by simp [haltedStatus], readBack_running, fun h => ?_⟩
  exact ⟨_, readBack_halted h, rfl, rfl, rfl, rfl, fun _ => rfl, rfl⟩

end Sys2Proof.Machine

/-! SUPPORT. What the memory operations answer in and out of range, and what an instruction does to memory: the one
write it presents, if it presents one. -/

namespace Sys2Proof.Machine

/-! ### Reads and writes by the bounds check (20_memory.md R31, R32) -/

theorem memRead_of_lt (m : Memory) {a : Word} (h : a.toNat < 4096) : memRead m a = Memory.cell m a.toNat :=
  if_pos ((inRange_eq_true a).mpr h)

theorem not_inRange {a : Word} (h : 4096 ≤ a.toNat) : ¬ inRange a = true := by
  rwa [inRange_eq_true, Nat.not_lt]

theorem memRead_of_ge (m : Memory) {a : Word} (h : 4096 ≤ a.toNat) : memRead m a = 0#16 :=
  if_neg (not_inRange h)

theorem memWrite_of_lt (m : Memory) {a : Word} (h : a.toNat < 4096) (v : Word) :
    memWrite m a v = Memory.setCell m a.toNat v :=
  if_pos ((inRange_eq_true a).mpr h)

theorem memWrite_of_ge (m : Memory) {a : Word} (h : 4096 ≤ a.toNat) (v : Word) : memWrite m a v = m :=
  if_neg (not_inRange h)

/-- Reading any address after a write to any address. -/
theorem memRead_memWrite {m : Memory} (hm : Memory.wf m = true) (a v x : Word) :
    memRead (memWrite m a v) x = if x = a ∧ a.toNat < 4096 then v else memRead m x := by
  by_cases ha : a.toNat < 4096
  · by_cases hx : x.toNat < 4096
    · simp only [memWrite_of_lt m ha, memRead_of_lt _ hx, Memory.cell_setCell v x.toNat hm, ha, and_true,
        BitVec.toNat_inj]
    · have hne : x ≠ a := fun h => hx (h ▸ ha)
      simp only [memRead_of_ge _ (Nat.not_lt.mp hx), hne, false_and, if_false]
  · simp only [memWrite_of_ge m (Nat.not_lt.mp ha), ha, and_false, if_false]

/-- A canonical memory lists cells below 4096 only. -/
theorem Memory.lt_of_mem_wfFrom : ∀ {lo : Nat} {m : Memory}, Memory.wfFrom lo m = true → ∀ c ∈ m, c.1 < 4096
  | _, (k, v) :: rest, h, c, hc => by
    obtain ⟨-, hk, -, hrest⟩ := (wfFrom_cons ..).mp h
    obtain rfl | hc := List.mem_cons.mp hc
    · exact hk
    · exact lt_of_mem_wfFrom hrest c hc

/-! ### The write of an instruction (20_memory.md R39) -/

@[simp] theorem inputState_mem (s : State) : (inputState s).mem = s.mem := by
  cases h : s.input with
  | nil => rw [inputState_nil h]
  | cons w rest => simp [inputState_cons h]

/-- Memory after an instruction: `ACC` written at the address it presents, or no write at all. -/
theorem nextState_mem (i : Instr) (s : State) :
    (nextState i s).mem = (storeAddress i s).elim s.mem fun p => memWrite s.mem p s.acc := by
  cases i with
  | input a => exact inputState_mem s
  | _ => rfl

theorem storeAddress_eq_none {i : Instr} (s : State) (hstore : ∀ a, i ≠ .store a) (hstorei : ∀ a, i ≠ .storei a) :
    storeAddress i s = none := by
  cases i with
  | store a => exact absurd rfl (hstore a)
  | storei a => exact absurd rfl (hstorei a)
  | _ => rfl

/-- Reading any address after an instruction. -/
theorem memRead_nextState (i : Instr) {s : State} (hs : MemoryCanonical s) (x : Word) :
    memRead (nextState i s).mem x =
      if storeAddress i s = some x ∧ x.toNat < 4096 then s.acc else memRead s.mem x := by
  rw [nextState_mem]
  cases storeAddress i s with
  | none => simp
  | some p =>
    have hiff : (x = p ∧ p.toNat < 4096) ↔ (some p = some x ∧ x.toNat < 4096) := by
      constructor <;> rintro ⟨⟨⟩, h⟩ <;> exact ⟨rfl, h⟩
    simpa only [Option.elim_some, hiff] using memRead_memWrite hs p s.acc x

theorem memoryCanonical_nextState (i : Instr) {s : State} (hs : MemoryCanonical s) :
    MemoryCanonical (nextState i s) := by
  unfold MemoryCanonical
  rw [nextState_mem]
  cases storeAddress i s with
  | none => exact hs
  | some p => exact wf_memWrite hs p s.acc

end Sys2Proof.Machine

/-! PROOFS. Reads and writes of memory, and what the instructions and the step do to it (20_memory.md R31 to R43). -/

namespace Sys2Proof.Machine

/-- Settles O53: a halted step keeps the state, a running one makes the one write of its instruction. -/
theorem everyStepKeepsMemoryCanonical : Obligations.EveryStepKeepsMemoryCanonical := by
  unfold Obligations.EveryStepKeepsMemoryCanonical
  intro s t hs h
  cases hrun : s.run with
  | false =>
    rw [step_halted hrun, Host.Outcome.next.injEq] at h
    exact h ▸ hs
  | true =>
    rw [step_running hrun] at h
    obtain rfl := exec_eq_next_iff.mp h
    exact memoryCanonical_nextState _ hs

/-- Settles O37: the array does not grow because the memory written is canonical too. -/
theorem writesSetOneCellOrNothing : Obligations.WritesSetOneCellOrNothing := by
  unfold Obligations.WritesSetOneCellOrNothing
  intro m a v hm
  exact ⟨memRead_memWrite hm a v, fun ha => memWrite_of_ge m ha v, Memory.lt_of_mem_wfFrom (wf_memWrite hm a v)⟩

/-- Settles O40, by the address the instruction presents for its write. -/
theorem memoryChangesOnlyAtTheStoreAddress : Obligations.MemoryChangesOnlyAtTheStoreAddress := by
  unfold Obligations.MemoryChangesOnlyAtTheStoreAddress
  intro i s t hs h
  obtain rfl := exec_eq_next_iff.mp h
  refine ⟨memRead_nextState i hs, fun a => ⟨rfl, rfl⟩, fun hstore hstorei => ?_⟩
  rw [nextState_mem, storeAddress_eq_none s hstore hstorei]
  rfl

/-- Settles O41: the fetch is an ordinary read, of the address just stored to. -/
theorem storedWordIsExecutedNext : Obligations.StoredWordIsExecutedNext := by
  unfold Obligations.StoredWordIsExecutedNext
  intro i s t hs h hrun haddr
  obtain rfl := exec_eq_next_iff.mp h
  have hfetch : fetch (nextState i s) = s.acc :=
    (memRead_nextState i hs _).trans (if_pos ⟨haddr, (inRange_eq_true _).mp (inRange_zext16 _)⟩)
  rw [step_running hrun, hfetch]

/-- Settles O36, by the bounds check. -/
theorem readsOutOfRangeReturnZero : Obligations.ReadsOutOfRangeReturnZero := by
  unfold Obligations.ReadsOutOfRangeReturnZero
  exact fun m _ => ⟨memRead_of_lt m, memRead_of_ge m⟩

/-- Settles O38: 5000 is out of range for the write and the read, 10 is in range. -/
theorem sourceBoundsCheckVectors : Obligations.SourceBoundsCheckVectors := by
  unfold Obligations.SourceBoundsCheckVectors
  intro m hm
  have hout : 4096 ≤ (5000#16).toNat := by decide
  have hin : (10#16).toNat < 4096 := by decide
  refine ⟨memWrite_of_ge m hout _, memRead_of_ge _ hout, ?_⟩
  rw [memRead_memWrite hm, if_pos ⟨rfl, hin⟩]

end Sys2Proof.Machine


/-! SUPPORT. The two fields of a word as numbers, the table read from an opcode and an address, and the decoder and
the encoder in terms of both (30_encoding.md R50 to R56). -/

namespace Sys2Proof

/-! ### The fields as numbers (30_encoding.md R52) -/

theorem toNat_opcodeField (w : Word) : (opcodeField w).toNat = w.toNat / 4096 := by
  have hw : w.toNat < 65536 := w.isLt
  rw [opcodeField, BitVec.extractLsb'_toNat, Nat.shiftRight_eq_div_pow]
  omega

theorem toNat_addressField (w : Word) : (addressField w).toNat = w.toNat % 4096 := by
  rw [addressField, BitVec.extractLsb'_toNat, Nat.shiftRight_zero]

/-- Two words have the same opcode when their numbers agree above bit 11. -/
theorem opcodeField_eq_iff (w w' : Word) : opcodeField w = opcodeField w' ↔ w.toNat / 4096 = w'.toNat / 4096 := by
  rw [← toNat_opcodeField, ← toNat_opcodeField, BitVec.toNat_inj]

/-! ### The table (30_encoding.md R52) -/

@[simp] theorem ofFields_opcode_address (i : Instr) : ofFields i.opcode i.address = i := by
  cases i <;> simp [ofFields, Instr.opcode, Instr.address]

@[simp] theorem address_ofFields (op : BitVec 4) (a : Addr) : (ofFields op a).address = a := by
  unfold ofFields
  split <;> rfl

/-- The address has no part in choosing the opcode. -/
theorem opcode_ofFields_congr (op : BitVec 4) (a b : Addr) : (ofFields op a).opcode = (ofFields op b).opcode := by
  unfold ofFields
  split <;> rfl

@[simp] theorem opcode_ofFields (op : BitVec 4) (a : Addr) : (ofFields op a).opcode = op := by
  have hzero : ∀ op : BitVec 4, (ofFields op 0#12).opcode = op := by decide
  rw [opcode_ofFields_congr op a 0#12, hzero]

/-! ### Decode and encode -/

@[simp] theorem opcode_decode (w : Word) : (decode w).opcode = opcodeField w := opcode_ofFields _ _

@[simp] theorem address_decode (w : Word) : (decode w).address = addressField w := address_ofFields _ _

/-- The word of an instruction is its opcode followed by its address. -/
theorem encode_eq_append (i : Instr) : encode i = i.opcode ++ i.address := by
  cases i <;> rfl

@[simp] theorem decode_encode (i : Instr) : decode (encode i) = i := by
  rw [encode_eq_append, decode_append, ofFields_opcode_address]

@[simp] theorem encode_decode (w : Word) : encode (decode w) = w := by
  rw [encode_eq_append, opcode_decode, address_decode, fields_append]

/-- The fields of the encoded word, read as quotient and remainder by 4096. -/
theorem toNat_encode (i : Instr) : (encode i).toNat = i.opcode.toNat * 4096 + i.address.toNat := by
  have hop : i.opcode.toNat = (encode i).toNat / 4096 := by
    rw [← toNat_opcodeField, ← opcode_decode, decode_encode]
  have haddr : i.address.toNat = (encode i).toNat % 4096 := by
    rw [← toNat_addressField, ← address_decode, decode_encode]
  omega

/-- Below 4096 the opcode is 0 (30_encoding.md R56). -/
theorem decode_of_lt {w : Word} (h : w.toNat < 4096) : decode w = .halt (addressField w) := by
  have hop : opcodeField w = 0#4 := by
    apply BitVec.eq_of_toNat_eq
    rw [toNat_opcodeField, Nat.div_eq_of_lt h, BitVec.toNat_zero]
  rw [decode, hop]
  rfl

/-! ### Bit strings of a stated length (30_encoding.md R51, R55) -/

theorem wellFormed_eq_true (i : Instr) : i.wellFormed = true := by
  cases i <;> rfl

theorem toNat_wordOfBits {nbits : Nat} (h : nbits ≤ 16) (w : Nat) : (wordOfBits nbits w).toNat = w % 2 ^ nbits := by
  have hlt : w % 2 ^ nbits < 2 ^ 16 :=
    (Nat.mod_lt w (Nat.two_pow_pos nbits)).trans_le (Nat.pow_le_pow_right Nat.two_pos h)
  rw [wordOfBits, BitVec.toNat_ofNat, Nat.mod_eq_of_lt hlt]

theorem decodeBits_zero (w : Nat) : decodeBits 0 w = .error .empty := rfl

theorem decodeBits_of_gt {nbits : Nat} (h : 16 < nbits) (w : Nat) : decodeBits nbits w = .error .multiWord := by
  rw [decodeBits, if_neg (by omega), if_pos h]

theorem decodeBits_of_le {nbits : Nat} (hpos : 1 ≤ nbits) (hle : nbits ≤ 16) (w : Nat) :
    decodeBits nbits w = .ok (decode (wordOfBits nbits w)) := by
  rw [decodeBits, if_neg (by omega), if_neg (by omega)]

end Sys2Proof

namespace Sys2Proof.Machine

/-- Running what the table reads from an instruction's two fields is running the instruction. -/
theorem exec_ofFields (i : Instr) (s : State) : exec (ofFields i.opcode i.address) s = exec i s := by
  rw [ofFields_opcode_address]

/-- An instruction that ignores its address field does what the table's instruction of its opcode does with any
other address (30_encoding.md R54). -/
theorem exec_ofFields_of_not_usesAddress {i : Instr} (h : i.usesAddress = false) (b : Addr) (s : State) :
    exec (ofFields i.opcode b) s = exec i s := by
  cases i with
  | halt a => exact exec_ofFields (.halt b) s
  | input a => exact exec_ofFields (.input b) s
  | output a => exact exec_ofFields (.output b) s
  | skipZero a => exact exec_ofFields (.skipZero b) s
  | skipPos a => exact exec_ofFields (.skipPos b) s
  | skipErr a => exact exec_ofFields (.skipErr b) s
  | _ => cases h

end Sys2Proof.Machine

/-! PROOFS. The encoding: decode and encode as inverses, lengths, ignored fields and small words
(30_encoding.md R50 to R57). -/

namespace Sys2Proof.Machine

/-- Settles O2: both directions meet in the pair of opcode and address, and a row of the table is `decode_encode` at
the row's instruction. -/
theorem decodeAndEncodeAreInverse : Obligations.DecodeAndEncodeAreInverse := by
  unfold Obligations.DecodeAndEncodeAreInverse
  refine ⟨?fields, toNat_encode, decode_encode, encode_decode, ?table⟩
  case fields =>
    intro w
    rw [opcode_decode, address_decode]
    exact ⟨toNat_opcodeField w, toNat_addressField w⟩
  case table =>
    intro a
    exact ⟨decode_encode (.halt a), rfl, decode_encode (.load a), rfl, decode_encode (.store a), rfl,
      decode_encode (.add a), rfl, decode_encode (.sub a), rfl, decode_encode (.input a), rfl,
      decode_encode (.output a), rfl, decode_encode (.jump a), rfl, decode_encode (.skipZero a), rfl,
      decode_encode (.skipPos a), rfl, decode_encode (.skipErr a), rfl, decode_encode (.loadi a), rfl,
      decode_encode (.storei a), rfl, decode_encode (.shift a), rfl, decode_encode (.and a), rfl,
      decode_encode (.xor a), rfl⟩

/-- Settles O3: the length alone chooses among the three answers, and a string that fits is the word of what it
decodes to. -/
theorem onlyLengthIsEverRejected : Obligations.OnlyLengthIsEverRejected := by
  unfold Obligations.OnlyLengthIsEverRejected
  intro nbits w
  refine ⟨fun hpos hle => ?fits, fun hgt => decodeBits_of_gt hgt w, ?none⟩
  case fits =>
    refine ⟨_, decodeBits_of_le hpos hle w, wellFormed_eq_true _, ?_⟩
    rw [encode_decode, toNat_wordOfBits hle]
  case none =>
    rintro rfl
    exact decodeBits_zero w

/-- Settles O4: the second word is read by the table from the opcode of the first and an address of its own. -/
theorem ignoredAddressFieldHasNoEffect : Obligations.IgnoredAddressFieldHasNoEffect := by
  unfold Obligations.IgnoredAddressFieldHasNoEffect
  intro w w' s hop hunused
  have hw' : decode w' = ofFields (decode w).opcode (addressField w') := by
    rw [opcode_decode, (opcodeField_eq_iff w w').mpr hop, decode]
  rw [hw', exec_ofFields_of_not_usesAddress hunused]

/-- Settles O5: the fetched word has opcode 0, and HALT's whole effect is to clear `RUN`. -/
theorem smallWordsHaltWhenExecuted : Obligations.SmallWordsHaltWhenExecuted := by
  unfold Obligations.SmallWordsHaltWhenExecuted
  intro s hrun hsmall
  have hfetch : decode (fetch s) = .halt (addressField (fetch s)) := decode_of_lt hsmall
  rw [step_running hrun, hfetch, exec_halt]
  rfl

/-- Settles O1: sixteen closed words, each read by the table. -/
theorem wordsWrittenOutDecodeByTheTable : Obligations.WordsWrittenOutDecodeByTheTable := by
  unfold Obligations.WordsWrittenOutDecodeByTheTable
  decide

end Sys2Proof.Machine

/-! SUPPORT. What a step can answer, said once: the state itself when the machine is halted, `nextState` of the fetched
instruction when it runs. Then which instructions repeat the state, how input words that are not asked for travel
through a step, and how a map that commutes with the steps of a run commutes with the run
(40_step_cycle.md R70 to R75). -/

namespace Sys2Proof.Machine

/-! ### The step (40_step_cycle.md R70, R71) -/

/-- A running machine's step is the next state of the instruction it fetches. -/
theorem step_eq_nextState {s : State} (h : s.run = true) : step s = .next (nextState (decode (fetch s)) s) := by
  rw [step_running h, exec_eq_nextState]

theorem step_eq_next_iff {s t : State} :
    step s = .next t ↔ (s.run = false ∧ s = t) ∨ (s.run = true ∧ nextState (decode (fetch s)) s = t) := by
  cases hrun : s.run with
  | false => simp [step_halted hrun]
  | true => simp [step_eq_nextState hrun]

/-! ### The three conditions of a machine (60_exceptions.md R143) -/

theorem not_enabled_iff (s : State) : ¬ Enabled s ↔ Halted s ∨ Waiting s := by
  rw [Enabled, not_and_or, not_not, Bool.not_eq_true]

/-- A running machine does not wait exactly when an INPUT it fetches finds a word. -/
theorem not_waiting_iff {s : State} (hrun : s.run = true) :
    ¬ Waiting s ↔ ((∃ a, decode (fetch s) = .input a) → s.input ≠ []) := by
  simp only [Waiting, hrun, true_and, not_and, ne_eq]

/-! ### Which instructions repeat the state -/

theorem State.setPc_eq_self_iff (s : State) (a : Addr) : s.setPc a = s ↔ a = s.pc := by
  constructor
  · intro h
    exact congrArg State.pc h
  · rintro rfl
    rfl

theorem State.clearRun_ne_self {s : State} (hrun : s.run = true) : s.clearRun ≠ s := by
  intro h
  have hfalse : false = s.run := congrArg State.run h
  simp [hrun] at hfalse

/-- Moving on by less than the memory size does not come back, whatever else has been updated before. -/
theorem State.advance_ne {u s : State} (hpc : u.pc = s.pc) {k : Nat} (hpos : 0 < k) (hlt : k < 4096) :
    u.advance k ≠ s := by
  intro h
  have hadd : s.pc + BitVec.ofNat 12 k = s.pc := hpc ▸ congrArg State.pc h
  have hzero : BitVec.ofNat 12 k = 0#12 := by simpa using hadd
  have hmod : k % 4096 = 0 := by simpa using congrArg BitVec.toNat hzero
  omega

theorem State.advance_one_ne {u s : State} (hpc : u.pc = s.pc) : u.advance 1 ≠ s :=
  advance_ne hpc (by decide) (by decide)

theorem State.advance_skip_ne_self (s : State) (c : Bool) : s.advance (if c then 2 else 1) ≠ s :=
  advance_ne rfl (by cases c <;> decide) (by cases c <;> decide)

theorem inputState_eq_self_iff (s : State) : inputState s = s ↔ s.input = [] := by
  cases h : s.input with
  | nil => simp [inputState_nil h]
  | cons w rest =>
    rw [inputState_cons h]
    exact iff_of_false (State.advance_one_ne rfl) (List.cons_ne_nil w rest)

/-- HALT clears `RUN` and the rest move `PC` on: what repeats the state of a running machine is INPUT with no word and
JUMP to its own address. -/
theorem nextState_eq_self_iff {i : Instr} {s : State} (hrun : s.run = true) :
    nextState i s = s ↔ ((∃ a, i = .input a) ∧ s.input = []) ∨ i = .jump s.pc := by
  cases i with
  | halt a => exact iff_of_false (State.clearRun_ne_self hrun) (by simp)
  | jump a => simpa [nextState] using State.setPc_eq_self_iff s a
  | input a => simpa [nextState] using inputState_eq_self_iff s
  | skipZero a => exact iff_of_false (State.advance_skip_ne_self s _) (by simp)
  | skipPos a => exact iff_of_false (State.advance_skip_ne_self s _) (by simp)
  | skipErr a => exact iff_of_false (State.advance_skip_ne_self s _) (by simp)
  | _ => exact iff_of_false (State.advance_one_ne rfl) (by simp)

/-! ### Input words supplied before a step are left over after it (60_exceptions.md R134) -/

theorem inputState_supplyInput (words : List Word) {s : State} (h : s.input ≠ []) :
    inputState (supplyInput words s) = supplyInput words (inputState s) := by
  obtain ⟨w, rest, hinput⟩ := List.exists_cons_of_ne_nil h
  have hsupplied : (supplyInput words s).input = w :: (rest ++ words) := by simp [hinput]
  rw [inputState_cons hinput, inputState_cons hsupplied]
  rfl

theorem nextState_supplyInput (words : List Word) {i : Instr} {s : State} (h : (∃ a, i = .input a) → s.input ≠ []) :
    nextState i (supplyInput words s) = supplyInput words (nextState i s) := by
  cases i with
  | input a => exact inputState_supplyInput words (h ⟨a, rfl⟩)
  | _ => rfl

theorem fetch_supplyInput (words : List Word) (s : State) : fetch (supplyInput words s) = fetch s := rfl

/-- A step that does not wait is the same step with further words supplied. -/
theorem step_supplyInput (words : List Word) {s t : State} (hw : ¬ Waiting s) (h : step s = .next t) :
    step (supplyInput words s) = .next (supplyInput words t) := by
  obtain ⟨hrun, rfl⟩ | ⟨hrun, rfl⟩ := step_eq_next_iff.mp h
  · exact step_halted hrun
  · rw [step_eq_nextState (s := supplyInput words s) hrun, fetch_supplyInput,
      nextState_supplyInput words ((not_waiting_iff hrun).mp hw)]

/-! ### Runs -/

/-- A map that commutes with every step from a state where `P` holds commutes with every run on which `P` holds before
each step. -/
theorem runsTo_map {P : State → Prop} {f : State → State}
    (hstep : ∀ s t, P s → step s = .next t → step (f s) = .next (f t)) :
    ∀ (k : Nat) {s t : State}, (∀ j u, j < k → RunsTo j s u → P u) → RunsTo k s t → RunsTo k (f s) (f t)
  | 0, s, t, _, h => by
    rw [runsTo_zero] at h ⊢
    exact congrArg f h
  | k + 1, s, t, hP, h => by
    obtain ⟨u, hu, hk⟩ := (runsTo_succ k s t).mp h
    have hs : P s := hP 0 s k.succ_pos ((runsTo_zero s s).mpr rfl)
    have hrest : ∀ j v, j < k → RunsTo j u v → P v := fun j v hj hv =>
      hP (j + 1) v (Nat.succ_lt_succ hj) ((runsTo_succ j s v).mpr ⟨u, hu, hv⟩)
    exact (runsTo_succ k (f s) (f t)).mpr ⟨f u, hstep s u hs hu, runsTo_map hstep k hrest hk⟩

theorem runsTo_self_of_step {s : State} (h : step s = .next s) : ∀ k : Nat, RunsTo k s s
  | 0 => (runsTo_zero s s).mpr rfl
  | k + 1 => (runsTo_succ k s s).mpr ⟨s, h, runsTo_self_of_step h k⟩

end Sys2Proof.Machine

/-! PROOFS. The step and its runs: what a step answers, when it repeats the state, and the input it does not ask for
(40_step_cycle.md R70 to R75). -/

namespace Sys2Proof.Machine

/-- Settles O56: supplying words commutes with each step that does not wait, hence with the run. -/
theorem unaskedInputLeavesTheRunAlone : Obligations.UnaskedInputLeavesTheRunAlone := by
  unfold Obligations.UnaskedInputLeavesTheRunAlone
  intro k s t words hwait h
  exact runsTo_map (fun _ _ => step_supplyInput words) k hwait h

/-- Settles O8, by the value of `RUN`. -/
theorem everyStepAnswersANextState : Obligations.EveryStepAnswersANextState := by
  unfold Obligations.EveryStepAnswersANextState
  intro s
  cases hrun : s.run with
  | false => exact ⟨s, step_halted hrun⟩
  | true => exact ⟨_, step_eq_nextState hrun⟩

/-- Settles O9: a halted step answers the same state, so every run does. -/
theorem haltedStateIsFinal : Obligations.HaltedStateIsFinal := by
  unfold Obligations.HaltedStateIsFinal
  exact fun k s hhalted => runsTo_self_of_step (step_halted hhalted) k

/-- Settles O12: a halted step repeats the state, and a running one does by `nextState_eq_self_iff`, whose first
case is waiting. -/
theorem onlyIdlingAndSelfJumpsRepeatTheState : Obligations.OnlyIdlingAndSelfJumpsRepeatTheState := by
  unfold Obligations.OnlyIdlingAndSelfJumpsRepeatTheState
  intro s
  refine ⟨not_enabled_iff s, ?_⟩
  rw [not_enabled_iff]
  cases hrun : s.run with
  | false => exact iff_of_true (step_halted hrun) (.inl (.inl hrun))
  | true =>
    rw [step_eq_nextState hrun, Host.Outcome.next.injEq, nextState_eq_self_iff hrun]
    simp [Halted, Waiting, hrun]

/-- Settles O6: the fetch is the read at `PC`. -/
theorem stepRunsTheFetchedInstruction : Obligations.StepRunsTheFetchedInstruction := by
  unfold Obligations.StepRunsTheFetchedInstruction
  rintro s i hrun - rfl
  exact step_running hrun

end Sys2Proof.Machine

/-! PROOFS. Data movement: LOAD, STORE and their two forms through a pointer (41_data_movement.md R80 to R83). -/

namespace Sys2Proof.Machine

/-- Reading any address after a write to a direct address, which is never out of range (20_memory.md R34). -/
theorem memRead_memWrite_zext16 {m : Memory} (hm : Memory.wf m = true) (a : Addr) (v x : Word) :
    memRead (memWrite m (zext16 a) v) x = if x = zext16 a then v else memRead m x := by
  have hin : (zext16 a).toNat < 4096 := (inRange_eq_true _).mp (inRange_zext16 a)
  simpa only [hin, and_true] using memRead_memWrite hm (zext16 a) v x

/-- Settles O14: a write to a direct address reaches its cell and no other, and the rest of STORE is `advance`. -/
theorem storeWritesTheNamedCellOnly : Obligations.StoreWritesTheNamedCellOnly := by
  unfold Obligations.StoreWritesTheNamedCellOnly
  intro a s hs
  exact ⟨_, exec_store a s, memRead_memWrite_zext16 hs a s.acc, rfl, toNat_pc_add_one s.pc, rfl, rfl, rfl, rfl, rfl⟩

/-- Settles O16: STOREI makes one write at the pointer, which the bounds check lets through or discards. -/
theorem storeiWritesThroughThePointer : Obligations.StoreiWritesThroughThePointer := by
  unfold Obligations.StoreiWritesThroughThePointer
  intro a s hs
  refine ⟨_, exec_storei a s, ⟨?write, ?discarded⟩, rfl, toNat_pc_add_one s.pc, rfl, rfl, rfl, rfl, rfl⟩
  case write => exact memRead_memWrite hs (pointer a s) s.acc
  case discarded => exact fun hout => memWrite_of_ge s.mem hout s.acc

/-- Settles O13: the direct operand is the cell the field names. -/
theorem loadCopiesTheCell : Obligations.LoadCopiesTheCell := by
  unfold Obligations.LoadCopiesTheCell
  intro a s
  exact ⟨_, exec_load a s, rfl, toNat_pc_add_one s.pc, rfl, rfl, rfl, rfl, rfl, rfl⟩

/-- Settles O15: the indirect operand is a read at the pointer, in range or out of range. -/
theorem loadiDereferencesThePointerOnce : Obligations.LoadiDereferencesThePointerOnce := by
  unfold Obligations.LoadiDereferencesThePointerOnce
  intro a s
  refine ⟨_, exec_loadi a s, ⟨?inside, ?outside⟩, toNat_pc_add_one s.pc, rfl, rfl, rfl, rfl, rfl, rfl⟩
  case inside => exact memRead_of_lt s.mem
  case outside => exact memRead_of_ge s.mem

end Sys2Proof.Machine

/-! SUPPORT. The ALU function by its mathematical results: truncation read as signed, ADD and SUB by their true result,
and the two shifts as the library's shifts of a word (42_alu.md R90 to R99). -/

namespace Sys2Proof.Machine

/-! ### Truncation (00_scope.md R7) -/

theorem le_toInt_word (w : Word) : -32768 ≤ w.toInt := w.le_toInt

theorem toInt_word_le (w : Word) : w.toInt ≤ 32767 := Int.le_of_lt_add_one w.toInt_lt

@[simp] theorem trunc16_toInt (w : Word) : trunc16 w.toInt = w := BitVec.ofInt_toInt

/-- The signed reading of a truncated integer: its residue modulo 65536, from 32768 on counted down from 65536. -/
theorem toInt_trunc16 (z : Int) :
    (trunc16 z).toInt = if z % 65536 < 32768 then z % 65536 else z % 65536 - 65536 := by
  have hz := toNat_trunc16 z
  rw [toInt_word, hz]
  exact if_congr (by omega) rfl rfl

theorem toInt_trunc16_of_mem {z : Int} (hlo : -32768 ≤ z) (hhi : z ≤ 32767) : (trunc16 z).toInt = z := by
  rw [toInt_trunc16]
  split <;> omega

/-- Truncation keeps exactly the integers that a word holds. -/
theorem toInt_trunc16_eq_self_iff (z : Int) : (trunc16 z).toInt = z ↔ -32768 ≤ z ∧ z ≤ 32767 := by
  refine ⟨fun h => ?_, fun ⟨hlo, hhi⟩ => toInt_trunc16_of_mem hlo hhi⟩
  rw [← h]
  exact ⟨le_toInt_word _, toInt_word_le _⟩

/-- Above a word's range, and below twice the range, truncation takes 65536 off. -/
theorem toInt_trunc16_of_gt {z : Int} (hlo : 32767 < z) (hhi : z ≤ 98303) : (trunc16 z).toInt = z - 65536 := by
  rw [toInt_trunc16]
  split <;> omega

/-- Below a word's range, and above twice the range, truncation puts 65536 on. -/
theorem toInt_trunc16_of_lt {z : Int} (hlo : -98304 ≤ z) (hhi : z < -32768) : (trunc16 z).toInt = z + 65536 := by
  rw [toInt_trunc16]
  split <;> omega

/-! ### ADD and SUB (42_alu.md R91 to R93) -/

theorem alu_add (a b : Word) : alu .add a b = (trunc16 (a.toInt + b.toInt), overflowed (a.toInt + b.toInt)) := rfl

theorem alu_sub (a b : Word) : alu .sub a b = (trunc16 (a.toInt - b.toInt), overflowed (a.toInt - b.toInt)) := rfl

/-- The ALU's sum is the sum of words: truncation makes the signed and the unsigned sum the same. -/
theorem trunc16_toInt_add_toInt (a b : Word) : trunc16 (a.toInt + b.toInt) = a + b := by
  rw [trunc16, BitVec.ofInt_add, BitVec.ofInt_toInt, BitVec.ofInt_toInt]

/-- A true sum lies where one wrap brings it back into a word's range. -/
theorem toInt_add_toInt_bounds (a b : Word) : -65536 ≤ a.toInt + b.toInt ∧ a.toInt + b.toInt ≤ 65534 := by
  have := le_toInt_word a
  have := le_toInt_word b
  have := toInt_word_le a
  have := toInt_word_le b
  omega

/-- So does a true difference. -/
theorem toInt_sub_toInt_bounds (a b : Word) : -65535 ≤ a.toInt - b.toInt ∧ a.toInt - b.toInt ≤ 65535 := by
  have := le_toInt_word a
  have := le_toInt_word b
  have := toInt_word_le a
  have := toInt_word_le b
  omega

/-- The overflow output is a signed result that is not the true one, except at -32768 (90_conflicts.md C1). -/
theorem overflowed_iff_toInt_trunc16_ne {total : Int} (h : total ≠ -32768) :
    overflowed total = true ↔ (trunc16 total).toInt ≠ total := by
  rw [overflowed_iff, ne_eq, toInt_trunc16_eq_self_iff]
  omega

/-! ### The shifts (42_alu.md R96 to R98) -/

theorem alu_shift_left {b : Word} (h : 0 ≤ b.toInt) (a : Word) :
    (alu .shift a b).1 = shiftLeftBy a b.toInt.toNat := shiftResult_left h a

theorem alu_shift_right {b : Word} (h : b.toInt < 0) (a : Word) :
    (alu .shift a b).1 = shiftRightBy a (-b.toInt).toNat := shiftResult_right h a

theorem shiftLeftBy_of_ge {n : Nat} (h : 16 ≤ n) (a : Word) : shiftLeftBy a n = 0#16 := if_neg (Nat.not_lt.mpr h)

theorem shiftRightBy_of_ge {m : Nat} (h : 16 ≤ m) (a : Word) :
    shiftRightBy a m = if a.toInt < 0 then 0xFFFF#16 else 0#16 := if_neg (Nat.not_lt.mpr h)

/-- The special case from 16 places on (decision D5) is what the shift of a word gives anyway. -/
theorem shiftLeftBy_eq (a : Word) (n : Nat) : shiftLeftBy a n = a <<< n := by
  by_cases hn : n < 16
  · exact if_pos hn
  · rw [shiftLeftBy_of_ge (Nat.not_lt.mp hn), BitVec.shiftLeft_eq_zero (Nat.not_lt.mp hn)]

/-- From 16 places on every bit of an arithmetic shift is the sign. -/
theorem sshiftRight_of_ge {m : Nat} (h : 16 ≤ m) (a : Word) :
    a.sshiftRight m = if a.toInt < 0 then 0xFFFF#16 else 0#16 := by
  have hones : (0xFFFF#16 : Word) = BitVec.allOnes 16 := rfl
  apply BitVec.eq_of_getLsbD_eq
  intro i hi
  rw [BitVec.getLsbD_sshiftRight, if_neg (by omega), BitVec.msb_eq_toInt]
  by_cases ha : a.toInt < 0
  · rw [if_pos ha, hones, BitVec.getLsbD_allOnes, decide_eq_true ha, Bool.and_true, ← decide_not]
    simp only [Nat.not_le]
  · simp [ha]

/-- Likewise to the right: from 16 places on (decision D5) the arithmetic shift of a word gives the sign. -/
theorem shiftRightBy_eq (a : Word) (m : Nat) : shiftRightBy a m = a.sshiftRight m := by
  by_cases hm : m < 16
  · exact if_pos hm
  · rw [shiftRightBy_of_ge (Nat.not_lt.mp hm), sshiftRight_of_ge (Nat.not_lt.mp hm)]

/-- A left shift multiplies (42_alu.md R97). -/
theorem shiftLeftBy_eq_trunc16 (a : Word) (n : Nat) : shiftLeftBy a n = trunc16 (a.toInt * 2 ^ n) := by
  have hpow : BitVec.ofInt 16 (2 ^ n) = BitVec.twoPow 16 n := by
    have hcast : (2 : Int) ^ n = (2 ^ n : Nat) := (Nat.cast_pow 2 n).symm
    apply BitVec.eq_of_toNat_eq
    rw [hcast, BitVec.ofInt_natCast, BitVec.toNat_ofNat, BitVec.toNat_twoPow]
  rw [shiftLeftBy_eq, trunc16, BitVec.ofInt_mul, BitVec.ofInt_toInt, hpow, BitVec.shiftLeft_eq_mul_twoPow]

/-- A right shift divides, rounding down (42_alu.md R98). -/
theorem toInt_shiftRightBy (a : Word) (m : Nat) : (shiftRightBy a m).toInt = a.toInt / 2 ^ m := by
  rw [shiftRightBy_eq, BitVec.toInt_sshiftRight, Int.shiftRight_eq_div_pow, Nat.cast_pow, Nat.cast_ofNat]

theorem shiftRightBy_eq_trunc16 (a : Word) (m : Nat) : shiftRightBy a m = trunc16 (a.toInt / 2 ^ m) := by
  rw [← toInt_shiftRightBy, trunc16_toInt]

theorem getLsbD_shiftLeftBy (a : Word) (n : Nat) {i : Nat} (hi : i < 16) :
    (shiftLeftBy a n).getLsbD i = (decide (n ≤ i) && a.getLsbD (i - n)) := by
  rw [shiftLeftBy_eq, BitVec.getLsbD_shiftLeft, decide_eq_true hi, Bool.true_and, ← decide_not]
  simp only [Nat.not_lt]

theorem getLsbD_shiftRightBy (a : Word) (m : Nat) {i : Nat} (hi : i < 16) :
    (shiftRightBy a m).getLsbD i = if i + m < 16 then a.getLsbD (i + m) else a.getLsbD 15 := by
  rw [shiftRightBy_eq, BitVec.getLsbD_sshiftRight, BitVec.msb_eq_getLsbD_last, Nat.add_comm m i,
    decide_eq_false (Nat.not_le.mpr hi), Bool.not_false, Bool.true_and]

/-! ### What ADD and SUB do with a true result (42_alu.md R101, R102) -/

/-- The state after an ADD or a SUB, by its true result: truncated to `ACC`, its overflow gathered in `OVF`.
`exec_add_total` and `exec_sub_total` tie it to `exec`. -/
def recordTotal (total : Int) (s : State) : State := ((s.setAcc (trunc16 total)).orOvf (overflowed total)).advance 1

theorem exec_add_total (a : Addr) (s : State) :
    exec (.add a) s = .next (recordTotal (s.acc.toInt + (memRead s.mem (zext16 a)).toInt) s) :=
  (exec_add a s).trans (aluWithFlag_eq a s .add)

theorem exec_sub_total (a : Addr) (s : State) :
    exec (.sub a) s = .next (recordTotal (s.acc.toInt - (memRead s.mem (zext16 a)).toInt) s) :=
  (exec_sub a s).trans (aluWithFlag_eq a s .sub)

theorem recordTotal_ovf (total : Int) (s : State) :
    (recordTotal total s).ovf = (s.ovf || decide (total < -32767 ∨ 32767 < total)) :=
  congrArg (s.ovf || ·) (Bool.eq_iff_iff.mpr ((overflowed_iff total).trans decide_eq_true_iff.symm))

/-- A true result outside -32767 to 32767 sets `OVF`. -/
theorem recordTotal_ovf_of_out {total : Int} (h : total < -32767 ∨ 32767 < total) (s : State) :
    (recordTotal total s).ovf = true := by
  rw [recordTotal_ovf, decide_eq_true h, Bool.or_true]

/-- A true result within -32767 to 32767 keeps `OVF`. -/
theorem recordTotal_ovf_of_in {total : Int} (hlo : -32767 ≤ total) (hhi : total ≤ 32767) (s : State) :
    (recordTotal total s).ovf = s.ovf := by
  rw [recordTotal_ovf, decide_eq_false (by omega), Bool.or_false]

end Sys2Proof.Machine

/-! PROOFS. The ALU function and the five instructions that use it (42_alu.md R90 to R105). -/

namespace Sys2Proof.Machine

/-- Settles O17: the result is the truncated true sum, which is the sum of the words, and the true sum lies where one
wrap brings it back. -/
theorem aluSumWrapsModulo65536 : Obligations.AluSumWrapsModulo65536 := by
  unfold Obligations.AluSumWrapsModulo65536
  intro a b
  obtain ⟨hlo, hhi⟩ := toInt_add_toInt_bounds a b
  refine ⟨toNat_trunc16 _, hlo, hhi, ?lowHalf, toInt_trunc16_of_mem, ?above, ?below⟩
  case lowHalf => rw [alu_add, trunc16_toInt_add_toInt, BitVec.toNat_add]
  case above => exact fun h => toInt_trunc16_of_gt h (hhi.trans (by decide))
  case below => exact toInt_trunc16_of_lt (le_trans (by decide) hlo)

/-- Settles O18: the result is the truncated true difference, which lies where one wrap brings it back. -/
theorem aluDifferenceWrapsModulo65536 : Obligations.AluDifferenceWrapsModulo65536 := by
  unfold Obligations.AluDifferenceWrapsModulo65536
  intro a b
  obtain ⟨hlo, hhi⟩ := toInt_sub_toInt_bounds a b
  refine ⟨toNat_trunc16 _, hlo, hhi, toInt_trunc16_of_mem, ?above, ?below⟩
  case above => exact fun h => toInt_trunc16_of_gt h (hhi.trans (by decide))
  case below => exact toInt_trunc16_of_lt (le_trans (by decide) hlo)

/-- Settles O19: both operations give their true result truncated and tested, and -32768 is in a word's range but
outside the interval of no overflow. -/
theorem overflowIsTheSymmetricInterval : Obligations.OverflowIsTheSymmetricInterval := by
  unfold Obligations.OverflowIsTheSymmetricInterval
  intro op a b total hop
  have halu : alu op a b = (trunc16 total, overflowed total) := by
    obtain ⟨rfl, rfl⟩ | ⟨rfl, rfl⟩ := hop
    · exact alu_add a b
    · exact alu_sub a b
  rw [halu]
  refine ⟨overflowed_iff total, overflowed_iff_toInt_trunc16_ne, ?edge⟩
  case edge =>
    rintro rfl
    decide

/-- Settles O21: a left shift is the product truncated, and bit by bit the shift of the word. -/
theorem shiftLeftMultipliesByAPowerOfTwo : Obligations.ShiftLeftMultipliesByAPowerOfTwo := by
  unfold Obligations.ShiftLeftMultipliesByAPowerOfTwo
  intro a b hb
  rw [alu_shift_left hb]
  refine ⟨?product, ?bits, ?zero⟩
  case product => rw [shiftLeftBy_eq_trunc16, toNat_trunc16]
  case bits => exact fun _ _ => getLsbD_shiftLeftBy a _
  case zero => exact fun hn => shiftLeftBy_of_ge hn a

/-- Settles O22: a right shift is the floor quotient, and bit by bit the arithmetic shift of the word. -/
theorem shiftRightDividesByAPowerOfTwo : Obligations.ShiftRightDividesByAPowerOfTwo := by
  unfold Obligations.ShiftRightDividesByAPowerOfTwo
  intro a b hb
  rw [alu_shift_right hb]
  refine ⟨?quotient, ?bits, ?sign⟩
  case quotient => exact toInt_shiftRightBy a _
  case bits => exact fun _ _ => getLsbD_shiftRightBy a _
  case sign => exact fun hm => shiftRightBy_of_ge hm a

/-- Settles O25, by the sign of the count. -/
theorem shiftByTheCellsSignedCount : Obligations.ShiftByTheCellsSignedCount := by
  unfold Obligations.ShiftByTheCellsSignedCount
  intro a s
  refine ⟨_, (exec_shift a s).trans (aluWithoutFlag_eq a s .shift), ?acc, toNat_pc_add_one s.pc,
    rfl, rfl, rfl, rfl, rfl, rfl⟩
  case acc =>
    simp only [State.advance_acc, State.setAcc_acc, directOperand]
    split
    next hcount => rw [alu_shift_left hcount, shiftLeftBy_eq_trunc16, toNat_trunc16]
    next hcount => rw [alu_shift_right (not_le.mp hcount), shiftRightBy_eq_trunc16, toNat_trunc16]

/-- Settles O20: the operations are the library's on words, and XOR with all ones is its complement. -/
theorem andXorAreBitwiseAndSetNoOverflow : Obligations.AndXorAreBitwiseAndSetNoOverflow := by
  unfold Obligations.AndXorAreBitwiseAndSetNoOverflow
  intro a b
  refine ⟨fun _ _ => BitVec.getLsbD_and, fun _ _ => BitVec.getLsbD_xor, ?complement, ?operations, rfl, rfl, rfl⟩
  case complement =>
    intro i hi
    have hnot : (alu .xor a 0xFFFF#16).1 = ~~~a := BitVec.xor_allOnes
    rw [hnot, BitVec.getLsbD_not, decide_eq_true hi, Bool.true_and]
  case operations =>
    intro op
    cases op <;> simp

/-- Settles O23: ADD records the true sum. -/
theorem addSumsAndRecordsOverflow : Obligations.AddSumsAndRecordsOverflow := by
  unfold Obligations.AddSumsAndRecordsOverflow
  intro a s
  exact ⟨_, exec_add_total a s, ⟨toNat_trunc16 _, recordTotal_ovf _ s⟩, toNat_pc_add_one s.pc, rfl, rfl, rfl, rfl, rfl⟩

/-- Settles O24: SUB records the true difference. -/
theorem subSubtractsAndRecordsOverflow : Obligations.SubSubtractsAndRecordsOverflow := by
  unfold Obligations.SubSubtractsAndRecordsOverflow
  intro a s
  exact ⟨_, exec_sub_total a s, ⟨toNat_trunc16 _, recordTotal_ovf _ s⟩, toNat_pc_add_one s.pc, rfl, rfl, rfl, rfl, rfl⟩

/-- Settles O26: the direct operand is the cell, and AND is the library's on words. -/
theorem andMasksTheAccumulator : Obligations.AndMasksTheAccumulator := by
  unfold Obligations.AndMasksTheAccumulator
  intro a s
  exact ⟨_, (exec_and a s).trans (aluWithoutFlag_eq a s .and), fun _ _ => BitVec.getLsbD_and, toNat_pc_add_one s.pc,
    rfl, rfl, rfl, rfl, rfl, rfl⟩

/-- Settles O27: the direct operand is the cell, and XOR is the library's on words. -/
theorem xorCombinesTheAccumulator : Obligations.XorCombinesTheAccumulator := by
  unfold Obligations.XorCombinesTheAccumulator
  intro a s
  exact ⟨_, (exec_xor a s).trans (aluWithoutFlag_eq a s .xor), fun _ _ => BitVec.getLsbD_xor, toNat_pc_add_one s.pc,
    rfl, rfl, rfl, rfl, rfl, rfl⟩

/-- Settles O58: both instructions record their true result, which is within the reach of one wrap. -/
theorem addAndSubAreExactUntilTheyOverflow : Obligations.AddAndSubAreExactUntilTheyOverflow := by
  unfold Obligations.AddAndSubAreExactUntilTheyOverflow
  intro a s i total hi
  have hexec : exec i s = .next (recordTotal total s) := by
    obtain ⟨rfl, rfl⟩ | ⟨rfl, rfl⟩ := hi
    · exact exec_add_total a s
    · exact exec_sub_total a s
  have hbounds : -65536 ≤ total ∧ total ≤ 65535 := by
    have := toInt_add_toInt_bounds s.acc (memRead s.mem (zext16 a))
    have := toInt_sub_toInt_bounds s.acc (memRead s.mem (zext16 a))
    omega
  refine ⟨_, hexec, ?inside, fun h => recordTotal_ovf_of_out (.inl h) s, fun h => recordTotal_ovf_of_out (.inr h) s,
    ?edge, ?above, ?below, toNat_pc_add_one s.pc, rfl, rfl, rfl, rfl, rfl⟩
  case inside => exact fun hlo hhi => ⟨toInt_trunc16_of_mem (by omega) hhi, recordTotal_ovf_of_in hlo hhi s⟩
  case edge => exact fun h => toInt_trunc16_of_mem (by omega) (by omega)
  case above => exact fun h => toInt_trunc16_of_gt h (by omega)
  case below => exact toInt_trunc16_of_lt (by omega)

end Sys2Proof.Machine

/-! PROOFS. JUMP and the three skips (43_control.md R110 to R113). A skip's answer is `advance` by its condition, so
each claim turns on what that condition says of the number in `ACC` or of `OVF`. -/

namespace Sys2Proof.Machine

/-- SKIPZERO's condition on the unsigned reading (43_control.md R111). -/
theorem accIsZero_iff_toNat (w : Word) : accIsZero w = true ↔ w.toNat = 0 :=
  (accIsZero_iff w).trans BitVec.toNat_inj.symm

/-- SKIPPOS's condition on the unsigned reading: a clear sign bit, and not zero (43_control.md R112). -/
theorem accIsPositive_iff_toNat (w : Word) : accIsPositive w = true ↔ 1 ≤ w.toNat ∧ w.toNat ≤ 32767 := by
  have hlt := w.isLt
  rw [accIsPositive_iff, toInt_word]
  split <;> omega

/-- The program counter as a number after a skip, by the proposition that the tested condition decides. -/
theorem toNat_pc_skip_of_iff {c : Bool} {P : Prop} [Decidable P] (hc : c = true ↔ P) (s : State) :
    (s.advance (if c then 2 else 1)).pc.toNat = (s.pc.toNat + (if P then 2 else 1)) % 4096 := by
  rw [State.advance_pc, toNat_pc_skip]
  by_cases hP : P
  · rw [if_pos hP, if_pos (hc.mpr hP)]
  · rw [if_neg hP, if_neg (mt hc.mp hP)]

/-- Settles O30: the patterns 0x0001 to 0x7FFF are those with a positive signed reading. -/
theorem skipPosTestsStrictlyPositive : Obligations.SkipPosTestsStrictlyPositive := by
  unfold Obligations.SkipPosTestsStrictlyPositive
  intro a s
  exact ⟨_, (exec_skipPos a s).trans (skipIf_eq s _), toNat_pc_skip_of_iff (accIsPositive_iff_toNat s.acc) s,
    rfl, rfl, rfl, rfl, rfl, rfl, rfl⟩

/-- Settles O28: the whole effect is `setPc` of the field. -/
theorem jumpSetsThePcToTheField : Obligations.JumpSetsThePcToTheField := by
  unfold Obligations.JumpSetsThePcToTheField
  intro a s
  exact ⟨_, exec_jump a s, State.setPc_pc s a, rfl, rfl, rfl, rfl, rfl, rfl, rfl⟩

/-- Settles O29: a word is zero when its unsigned reading is. -/
theorem skipZeroTestsAllSixteenBits : Obligations.SkipZeroTestsAllSixteenBits := by
  unfold Obligations.SkipZeroTestsAllSixteenBits
  intro a s
  exact ⟨_, (exec_skipZero a s).trans (skipIf_eq s _), toNat_pc_skip_of_iff (accIsZero_iff_toNat s.acc) s,
    rfl, rfl, rfl, rfl, rfl, rfl, rfl⟩

/-- Settles O31: the condition is the flag itself, which `advance` keeps. -/
theorem skipErrTestsOverflowAndKeepsIt : Obligations.SkipErrTestsOverflowAndKeepsIt := by
  unfold Obligations.SkipErrTestsOverflowAndKeepsIt
  intro a s
  exact ⟨_, (exec_skipErr a s).trans (skipIf_eq s _), toNat_pc_skip_of_iff Iff.rfl s, State.advance_ovf s _,
    rfl, rfl, rfl, rfl, rfl, rfl⟩

end Sys2Proof.Machine

/-! SUPPORT. What an instruction does to the two ports: OUTPUT alone writes the trace and INPUT alone reads the input
stream, so each only moves forward. Then the relation between a state and a later one that every step, and so every
run, keeps (44_system_io.md R121 to R124). -/

namespace Sys2Proof.Machine

/-! ### The output trace (44_system_io.md R121, R122) -/

@[simp] theorem inputState_output (s : State) : (inputState s).output = s.output := by
  cases h : s.input with
  | nil => rw [inputState_nil h]
  | cons w rest => simp [inputState_cons h]

theorem nextState_output_of_ne_output {i : Instr} (s : State) (hout : ∀ a, i ≠ .output a) :
    (nextState i s).output = s.output := by
  cases i with
  | output a => exact absurd rfl (hout a)
  | input a => exact inputState_output s
  | _ => rfl

/-- An instruction extends the trace at its end, by one item or none. -/
theorem exists_nextState_output_eq_append (i : Instr) (s : State) :
    ∃ more, (nextState i s).output = s.output ++ more := by
  cases i with
  | output a => exact ⟨[s.acc], rfl⟩
  | _ => exact ⟨[], by rw [nextState_output_of_ne_output s (by simp), List.append_nil]⟩

/-! ### The input stream (44_system_io.md R123, R124) -/

theorem nextState_input_of_ne_input {i : Instr} (s : State) (hin : ∀ a, i ≠ .input a) :
    (nextState i s).input = s.input ∧ (nextState i s).consumed = s.consumed := by
  cases i with
  | input a => exact absurd rfl (hin a)
  | _ => exact ⟨rfl, rfl⟩

/-- With no word available no instruction consumes one, INPUT included. -/
theorem nextState_input_of_nil (i : Instr) {s : State} (h : s.input = []) :
    (nextState i s).input = [] ∧ (nextState i s).consumed = s.consumed := by
  cases i with
  | input a =>
    rw [nextState, inputState_nil h]
    exact ⟨h, rfl⟩
  | _ => exact ⟨h, rfl⟩

/-- What an instruction consumes is a front part of the stream, and it counts it. -/
theorem exists_input_eq_append_nextState_input (i : Instr) (s : State) :
    ∃ used, s.input = used ++ (nextState i s).input ∧ (nextState i s).consumed = s.consumed + used.length := by
  cases i with
  | input a =>
    cases h : s.input with
    | nil => exact ⟨[], (nextState_input_of_nil _ h).1.symm, (nextState_input_of_nil _ h).2⟩
    | cons w rest =>
      rw [nextState, inputState_cons h]
      exact ⟨[w], rfl, rfl⟩
  | _ => exact ⟨[], rfl, rfl⟩

/-! ### A later state of a run -/

/-- How a state `t` reached from `s` continues the history of `s`. -/
structure ExtendsHistory (s t : State) : Prop where
  output : ∃ more, t.output = s.output ++ more
  input : ∃ used, s.input = used ++ t.input ∧ t.consumed = s.consumed + used.length
  ovf : s.ovf = true → t.ovf = true
  halted : s.run = false → t = s
  canonical : MemoryCanonical s → MemoryCanonical t

theorem ExtendsHistory.refl (s : State) : ExtendsHistory s s where
  output := ⟨[], (List.append_nil _).symm⟩
  input := ⟨[], rfl, rfl⟩
  ovf := id
  halted _ := rfl
  canonical := id

theorem ExtendsHistory.trans {s u t : State} (hsu : ExtendsHistory s u) (hut : ExtendsHistory u t) :
    ExtendsHistory s t where
  output := by
    obtain ⟨more, hmore⟩ := hsu.output
    obtain ⟨later, hlater⟩ := hut.output
    exact ⟨more ++ later, by rw [hlater, hmore, List.append_assoc]⟩
  input := by
    obtain ⟨used, hused, hcount⟩ := hsu.input
    obtain ⟨later, hlater, hcount'⟩ := hut.input
    exact ⟨used ++ later, by rw [hused, hlater, List.append_assoc],
      by rw [hcount', hcount, List.length_append, Nat.add_assoc]⟩
  ovf := hut.ovf ∘ hsu.ovf
  halted hs := by
    obtain rfl := hsu.halted hs
    exact hut.halted hs
  canonical := hut.canonical ∘ hsu.canonical

theorem extendsHistory_nextState (i : Instr) {s : State} (hrun : s.run = true) : ExtendsHistory s (nextState i s) where
  output := exists_nextState_output_eq_append i s
  input := exists_input_eq_append_nextState_input i s
  ovf := nextState_ovf_of_ovf i
  halted hs := absurd hrun (by simp [hs])
  canonical := memoryCanonical_nextState i

theorem extendsHistory_of_step {s t : State} (h : step s = .next t) : ExtendsHistory s t := by
  obtain ⟨-, rfl⟩ | ⟨hrun, rfl⟩ := step_eq_next_iff.mp h
  · exact .refl s
  · exact extendsHistory_nextState _ hrun

theorem extendsHistory_of_runsTo {k : Nat} {s t : State} (h : RunsTo k s t) : ExtendsHistory s t :=
  runsTo_induction (fun _ _ hsu hstep => hsu.trans (extendsHistory_of_step hstep)) k (.refl s) h

end Sys2Proof.Machine

/-! PROOFS. HALT, OUTPUT and INPUT, the steps that touch the ports, and the history of a run
(44_system_io.md R120 to R124). -/

namespace Sys2Proof.Machine

/-- Settles O55: continuing the history is transitive, and every step does it. -/
theorem runsOnlyExtendTheirHistory : Obligations.RunsOnlyExtendTheirHistory := by
  unfold Obligations.RunsOnlyExtendTheirHistory
  intro k s t h
  obtain ⟨houtput, hinput, hovf, hhalted, hcanonical⟩ := extendsHistory_of_runsTo h
  exact ⟨houtput, hinput, hovf, hhalted, hcanonical⟩

/-- Settles O48: a halted step is no OUTPUT and keeps the state, a running one is its instruction's next state. -/
theorem onlyOutputExtendsTheTrace : Obligations.OnlyOutputExtendsTheTrace := by
  unfold Obligations.OnlyOutputExtendsTheTrace
  intro s t h
  obtain ⟨hrun, rfl⟩ | ⟨hrun, rfl⟩ := step_eq_next_iff.mp h
  · exact ⟨fun ⟨hrunning, _⟩ => absurd hrunning (by simp [hrun]), fun _ => rfl⟩
  · refine ⟨?_, fun hnot => nextState_output_of_ne_output s fun a hfetch => hnot ⟨hrun, a, hfetch⟩⟩
    rintro ⟨-, a, hfetch⟩
    rw [hfetch]
    rfl

/-- Settles O49: as O48, with the empty stream as a case of its own. -/
theorem onlyInputConsumesAWord : Obligations.OnlyInputConsumesAWord := by
  unfold Obligations.OnlyInputConsumesAWord
  intro s t h
  obtain ⟨hrun, rfl⟩ | ⟨hrun, rfl⟩ := step_eq_next_iff.mp h
  · exact ⟨fun _ _ hrunning => absurd hrunning (by simp [hrun]), fun _ => ⟨rfl, rfl⟩, fun hnil => ⟨hnil, rfl⟩⟩
  · refine ⟨?_, fun hnot => nextState_input_of_ne_input s fun a hfetch => hnot ⟨hrun, a, hfetch⟩,
      nextState_input_of_nil _⟩
    rintro w rest - ⟨a, hfetch⟩ hinput
    rw [hfetch, nextState, inputState_cons hinput]
    exact ⟨rfl, rfl, rfl⟩

/-- Settles O32: HALT's whole effect is `clearRun`, and the empty image reads as 0, a HALT, at the entry point. -/
theorem haltClearsRunAndKeepsPc : Obligations.HaltClearsRunAndKeepsPc := by
  unfold Obligations.HaltClearsRunAndKeepsPc
  refine ⟨fun a s => ⟨_, exec_halt a s, rfl, rfl, rfl, rfl, rfl, rfl, rfl, rfl⟩, fun w hw => ⟨_, decode_of_lt hw⟩,
    fun input => smallWordsHaltWhenExecuted _ rfl ?_⟩
  have hcell : memRead (launch [] input).mem (zext16 (launch [] input).pc) = 0#16 := memRead_nil _
  rw [hcell]
  decide

/-- Settles O33: the whole effect is `emit` of `ACC` and moving on. -/
theorem outputAppendsTheAccumulator : Obligations.OutputAppendsTheAccumulator := by
  unfold Obligations.OutputAppendsTheAccumulator
  intro a s
  exact ⟨_, exec_output a s, rfl, toNat_pc_add_one s.pc, rfl, rfl, rfl, rfl, rfl, rfl⟩

/-- Settles O34, by INPUT's answer when the stream has a first word. -/
theorem inputTakesTheNextWord : Obligations.InputTakesTheNextWord := by
  unfold Obligations.InputTakesTheNextWord
  intro a s w rest hinput
  exact ⟨_, exec_input_cons a hinput, rfl, rfl, rfl, toNat_pc_add_one s.pc, rfl, rfl, rfl, rfl⟩

/-- Settles O35, by INPUT's answer when the stream is empty. -/
theorem inputWithoutAWordChangesNothing : Obligations.InputWithoutAWordChangesNothing := by
  unfold Obligations.InputWithoutAWordChangesNothing
  exact fun a _ => exec_input_nil a

/-- Settles O10: the machine still stands at its INPUT when the word arrives, and then O34 says what it does. -/
theorem waitingEndsWhenAWordArrives : Obligations.WaitingEndsWhenAWordArrives := by
  unfold Obligations.WaitingEndsWhenAWordArrives
  rintro s ⟨hrun, ⟨a, hfetch⟩, hinput⟩
  constructor
  · rw [step_running hrun, hfetch, exec_input_nil a hinput]
  · intro w later
    have hsupplied : (supplyInput (w :: later) s).input = w :: later := by simp [hinput]
    obtain ⟨t, hexec, hacc, hrest, hconsumed, hpc, hovf, hkept, hmem, houtput⟩ :=
      inputTakesTheNextWord a (supplyInput (w :: later) s) w later hsupplied
    refine ⟨t, ?_, hacc, hpc, hrest, hconsumed, hovf, hkept.trans hrun, hmem, houtput⟩
    rw [step_running (s := supplyInput (w :: later) s) hrun, fetch_supplyInput, hfetch, hexec]

end Sys2Proof.Machine

/-! PROOFS. The halt is precise, and arriving input disturbs nothing (60_exceptions.md R134, R136). -/

namespace Sys2Proof.Machine

/-- A halted machine has a HALT at its `PC` (60_exceptions.md R136). A running one satisfies this trivially. -/
def HaltIsPrecise (s : State) : Prop := Halted s → ∃ a, decode (fetch s) = .halt a

theorem haltIsPrecise_of_running {s : State} (hrun : s.run = true) : HaltIsPrecise s :=
  fun hhalted => absurd (hhalted.symm.trans hrun) Bool.false_ne_true

/-- Only a HALT stops a running machine. -/
theorem exists_eq_halt_of_halted_nextState {i : Instr} {s : State} (hrun : s.run = true)
    (hhalted : Halted (nextState i s)) : ∃ a, i = .halt a := by
  by_contra hnot
  have hkept : (nextState i s).run = s.run := nextState_run_of_ne_halt s fun a hi => hnot ⟨a, hi⟩
  exact Bool.false_ne_true (hhalted.symm.trans (hkept.trans hrun))

/-- HALT moves neither `PC` nor memory, so the machine it stops fetches the same word. -/
theorem fetch_clearRun (s : State) : fetch s.clearRun = fetch s := rfl

theorem haltIsPrecise_nextState_fetch {s : State} (hrun : s.run = true) :
    HaltIsPrecise (nextState (decode (fetch s)) s) := by
  intro hhalted
  obtain ⟨a, hfetch⟩ := exists_eq_halt_of_halted_nextState hrun hhalted
  refine ⟨a, ?_⟩
  rw [hfetch, nextState, fetch_clearRun, hfetch]

theorem haltIsPrecise_of_step (s t : State) (hs : HaltIsPrecise s) (h : step s = .next t) : HaltIsPrecise t := by
  obtain ⟨-, rfl⟩ | ⟨hrun, rfl⟩ := step_eq_next_iff.mp h
  · exact hs
  · exact haltIsPrecise_nextState_fetch hrun

theorem haltIsPrecise_launch (image input : List Word) : HaltIsPrecise (launch image input) :=
  haltIsPrecise_of_running rfl

/-- Settles O54: a launched machine runs, and the step that halts one leaves it at the HALT it fetched. -/
theorem haltedMachineStandsAtAHalt : Obligations.HaltedMachineStandsAtAHalt := by
  unfold Obligations.HaltedMachineStandsAtAHalt
  exact ⟨haltIsPrecise_of_step, fun image input k _ hruns =>
    runsTo_induction haltIsPrecise_of_step k (haltIsPrecise_launch image input) hruns⟩

/-- Settles O11: the step lemma of O56. A halted machine keeps its state, and of the instructions only INPUT reads the
stream, whose first word is the same with more words behind it. -/
theorem arrivingInputDisturbsNothing : Obligations.ArrivingInputDisturbsNothing := by
  unfold Obligations.ArrivingInputDisturbsNothing
  exact fun _ _ words => step_supplyInput words

end Sys2Proof.Machine

/-! PROOFS. What the host places in memory: the word at `PC` (log entry 6) and the image of a launch
(70_reset_and_hazards.md R150, R153, R154). -/

namespace Sys2Proof.Machine

/-! ### The word placed for fetching -/

theorem wordOfBits_toNat (w : Word) : wordOfBits 16 w.toNat = w := by
  apply BitVec.eq_of_toNat_eq
  rw [toNat_wordOfBits le_rfl, Nat.mod_eq_of_lt w.isLt]

theorem withFetchWord_toNat (s : State) (w : Word) : s.withFetchWord 16 w.toNat = placeAtFetch s w := by
  rw [State.withFetchWord, wordOfBits_toNat]

theorem fetch_placeAtFetch {s : State} (hs : MemoryCanonical s) (w : Word) : fetch (placeAtFetch s w) = w := by
  rw [fetch, placeAtFetch_mem, placeAtFetch_pc, memRead_memWrite_zext16 hs, if_pos rfl]

/-- Settles O7: the write at `PC` is what the fetch reads, `RUN` is set, and decoding undoes the encoding. -/
theorem placedWordIsRunNext : Obligations.PlacedWordIsRunNext := by
  unfold Obligations.PlacedWordIsRunNext
  intro s i hs
  rw [withFetchWord_toNat]
  refine ⟨?_, rfl, rfl, rfl, rfl, rfl, rfl, rfl, memRead_memWrite_zext16 hs s.pc (encode i)⟩
  rw [step_running (placeAtFetch_run s (encode i)), fetch_placeAtFetch hs, decode_encode]

/-! ### The image of a launch -/

/-- The host load is one word at a time; a one-word image stands for the load of one word. -/
theorem loadFrom_cons (m : Memory) (i : Nat) (w : Word) (rest : List Word) :
    loadFrom m i (w :: rest) = loadFrom (loadFrom m i [w]) (i + 1) rest := rfl

theorem loadFrom_singleton_of_lt (m : Memory) {i : Nat} (hi : i < 4096) (w : Word) :
    loadFrom m i [w] = memWrite m (BitVec.ofNat 16 i) w := if_pos hi

theorem loadFrom_singleton_of_ge (m : Memory) {i : Nat} (hi : 4096 ≤ i) (w : Word) : loadFrom m i [w] = m :=
  if_neg (Nat.not_lt.mpr hi)

/-- Reading a cell after the load of one word, which is dropped from 4096 up (70_reset_and_hazards.md R154). -/
theorem memRead_loadFrom_singleton {m : Memory} (hm : Memory.wf m = true) (i : Nat) (w : Word) (a : Addr) :
    memRead (loadFrom m i [w]) (zext16 a) = if a.toNat = i then w else memRead m (zext16 a) := by
  by_cases hi : i < 4096
  · have hport : (BitVec.ofNat 16 i).toNat = i := by
      rw [BitVec.toNat_ofNat, Nat.mod_eq_of_lt (by omega)]
    have haddr : zext16 a = BitVec.ofNat 16 i ↔ a.toNat = i := by
      rw [← BitVec.toNat_inj, toNat_zext16, hport]
    simp only [loadFrom_singleton_of_lt m hi, memRead_memWrite hm, haddr, hport, hi, and_true]
  · have hne : a.toNat ≠ i := (a.isLt.trans_le (Nat.not_lt.mp hi)).ne
    rw [loadFrom_singleton_of_ge m (Nat.not_lt.mp hi), if_neg hne]

/-- Reading a cell after the host load from address `i` up: below `i` nothing changes, and from there on the cell
holds the image's word, where the image is that long. -/
theorem memRead_loadFrom (image : List Word) (a : Addr) {m : Memory} (hm : Memory.wf m = true) (i : Nat) :
    memRead (loadFrom m i image) (zext16 a) =
      if a.toNat < i then memRead m (zext16 a) else (image[a.toNat - i]?).getD (memRead m (zext16 a)) := by
  induction image generalizing m i with
  | nil => exact (ite_self _).symm
  | cons w rest ih =>
    rw [loadFrom_cons, ih (wf_loadFrom [w] i hm), memRead_loadFrom_singleton hm]
    obtain hlt | heq | hgt := Nat.lt_trichotomy a.toNat i
    · simp [hlt, hlt.ne, Nat.lt_succ_of_lt hlt]
    · simp [heq]
    · have hindex : a.toNat - i = a.toNat - (i + 1) + 1 := by omega
      simp [hgt.ne', hindex, Nat.not_lt_of_gt hgt, Nat.not_lt_of_ge hgt]

/-- Settles O50: the image is loaded from address 0 up into the empty memory, which reads 0 everywhere. -/
theorem launchLoadsTheImageAndClearsTheRest : Obligations.LaunchLoadsTheImageAndClearsTheRest := by
  unfold Obligations.LaunchLoadsTheImageAndClearsTheRest
  intro image input
  refine ⟨rfl, rfl, rfl, rfl, rfl, rfl, rfl, fun a => ?_⟩
  rw [launch_mem, memRead_loadFrom image a Memory.wf_nil, if_neg (Nat.not_lt_zero _), Nat.sub_zero, memRead_nil]

end Sys2Proof.Machine
